-- ==== Sys2Proof/Word.lean ====
section
/-! DEFINITION. The two word types of the machine (`XLEN` = 8 and `ALEN` = 16, 00_scope.md R2) [log 24]. -/

namespace Sys2Proof

/-- Registers A and B, every immediate and every memory cell: 8 bits (10_state.md R10, R11). -/
abbrev Byte := BitVec 8

/-- PC, SP, BP and every address: 16 bits (10_state.md R13, R15, R16). -/
abbrev Addr := BitVec 16

end Sys2Proof
end

