-- ==== Sys2Proof/Machine/Bits.lean ====
section
/-! DEFINITION. The bit-field, extension and byte-order primitives of 00_scope.md R3 and R4. -/

namespace Sys2Proof.Machine

/-- `zext_16`: an 8-bit value extended with zeros (00_scope.md R4). -/
def zext16 (v : Byte) : Addr := v.setWidth 16

/-- `sext_16`: an 8-bit value extended with copies of bit 7 (00_scope.md R4, general formula from general knowledge G3). -/
def sext16 (v : Byte) : Addr := v.signExtend 16

/-- `lo(w)`, bits 7 to 0 (00_scope.md R4). -/
def loByte (w : Addr) : Byte := w.extractLsb' 0 8

/-- `hi(w)`, bits 15 to 8 (00_scope.md R4). -/
def hiByte (w : Addr) : Byte := w.extractLsb' 8 8

/-- The concatenation of a high and a low byte, `hi` in the high bits (00_scope.md R3). -/
def joinBytes (hi lo : Byte) : Addr := hi ++ lo

/-- The 16-bit value of two consecutive bytes, the one at the lower address given first. -/
def orderPair (lowFirst : Bool) (first second : Byte) : Addr :=
  if lowFirst then joinBytes second first else joinBytes first second

/-- The two bytes of a 16-bit value in memory order, the inverse of `orderPair`. -/
def splitPair (lowFirst : Bool) (w : Addr) : List Byte :=
  if lowFirst then [loByte w, hiByte w] else [hiByte w, loByte w]

end Sys2Proof.Machine
end

