-- ==== Sys2Proof/Config.lean ====
section
/-! DEFINITION. The implementation parameters of 00_scope.md R2, at the values that rule gives them, and the two
parameters of 60_exceptions.md R203 and R204 that the spec leaves OPEN, as constants without a body.
`END_PC` and `IMAGE` have no default: they are arguments of `RunState.advance` and `State.boot`. -/

namespace Sys2Proof

/-- `MEM_TOP`, the highest implemented address (20_memory.md R43, decision D3). DESIGN CHOICE of the spec [log 18]. -/
def Config.memTop : Nat := 0x3FFF

/-- `RESET_PC`, the first byte of "OS Code" (70_reset_and_hazards.md R220, decision D22). DESIGN CHOICE of the spec [log 21]. -/
def Config.resetPc : Addr := 0x0100

/-- `RESET_SP`, the first byte of "Stack" (70_reset_and_hazards.md R220, decision D22). DESIGN CHOICE of the spec [log 21]. -/
def Config.resetSp : Addr := 0x0E00

/-- `OPERAND_LOW_FIRST`: a `[MEM]` operand is stored low byte first (20_memory.md R46, decision D4) [log 4]. -/
def Config.operandLowFirst : Bool := true

/-- `ZPPTR_LOW_FIRST`: a zero-page pointer is stored low byte first (20_memory.md R47, decision D5) [log 5]. -/
def Config.zpptrLowFirst : Bool := true

/-- `ZP_WRAP`: whether the pointer at 0xFF takes its second byte from 0x0000 (20_memory.md R47, decision D6) [log 5]. -/
def Config.zpWrap : Bool := false

/-- `INDEX_B_SIGNED`: whether the offset in B is sign-extended (41_memory_ops.md R100, decision D7) [log 6]. -/
def Config.indexBSigned : Bool := false

/-- `ADD_CARRY_IN`: whether additions take C as a carry-in (43_alu_ops.md R140, decision D11) [log 10]. -/
def Config.addCarryIn : Bool := false

/-- `SUB_BORROW_IN`: whether subtractions take a borrow-in from C (43_alu_ops.md R140, decision D12) [log 11]. -/
def Config.subBorrowIn : Bool := false

/-- `SUB_C_IS_BORROW`: C after a subtraction is the borrow, not its complement (43_alu_ops.md R140, decision D12) [log 11]. -/
def Config.subCIsBorrow : Bool := true

/-- `RET_USES_BP`: `RET` finds its frame from BP, not from SP (42_stack_ops.md R129, decision D19) [log 17]. -/
def Config.retUsesBp : Bool := true

/-- `CHARSET_SELECT`, OPEN (60_exceptions.md R203): which character set the display uses, `false` for set 0 and
`true` for set 1. A free value: nothing can be proved of it [log 27]. -/
opaque Config.charsetSelect : Bool

/-- `SCREEN_COLS`, OPEN (60_exceptions.md R204): how many cells one line of the screen shows. A free value [log 27]. -/
opaque Config.screenCols : Nat

end Sys2Proof
end

