-- ==== Sys2Proof/Machine/Flags.lean ====
section
/-! DEFINITION. The ALU's results and flag values (43_alu_ops.md R140). Each function takes the reading its parameter
selects; the instructions pass the values of Config.lean. -/

namespace Sys2Proof.Machine

/-- What an ALU instruction that produces a result computes: the 8-bit result, and the values of C and V. The values
of Z and M follow from the result (10_state.md R17). -/
structure AluResult where
  value : Byte
  carry : Bool
  overflow : Bool
  deriving DecidableEq, Repr

/-- Z after the result `r`: `r = 0x00` (43_alu_ops.md R140, `setZM`). -/
def zeroFlag (r : Byte) : Bool := r == 0

/-- M after the result `r`: bit 7 (43_alu_ops.md R140, `setZM`). -/
def minusFlag (r : Byte) : Bool := r.msb

/-- The carry-in of an addition, `false` unless `ADD_CARRY_IN` (43_alu_ops.md R140, decision D11). -/
def carryIn (reads : Bool) (c : Bool) : Bool := reads && c

/-- The borrow-in of a subtraction, `false` unless `SUB_BORROW_IN` (43_alu_ops.md R140, decision D12). Under that
reading C holds a borrow or its complement as `cIsBorrow` says [log 31]. -/
def borrowIn (reads cIsBorrow : Bool) (c : Bool) : Bool := reads && (c == cIsBorrow)

/-- `add8`: the sum modulo 256, the carry out of bit 7, and two's-complement overflow: operands of equal sign and a
result of the other sign (43_alu_ops.md R140, formula from general knowledge G2). -/
def add8 (cin : Bool) (x y : Byte) : AluResult :=
  let sum := x.toNat + y.toNat + cin.toNat
  let r := BitVec.ofNat 8 sum
  { value := r
    carry := decide (256 ≤ sum)
    overflow := (x.msb == y.msb) && (r.msb != x.msb) }

/-- `sub8`: the difference modulo 256, the borrow (or its complement, unless `cIsBorrow`), and two's-complement
overflow: operands of different sign and a result whose sign is not the first operand's (43_alu_ops.md R140). -/
def sub8 (cIsBorrow bin : Bool) (x y : Byte) : AluResult :=
  let r := x - y - BitVec.ofNat 8 bin.toNat
  let borrow := decide (x.toNat < y.toNat + bin.toNat)
  { value := r
    carry := borrow == cIsBorrow
    overflow := (x.msb != y.msb) && (r.msb != x.msb) }

/-- A logic operation's result: C and V are 0 (43_alu_ops.md R140, decision D14). -/
def logic8 (r : Byte) : AluResult :=
  { value := r, carry := false, overflow := false }

/-- `SHL`: bit 7 goes to C, bit 0 is filled with 0, V is 0 (43_alu_ops.md R146, decision D15). -/
def shl8 (x : Byte) : AluResult :=
  { value := x <<< 1, carry := x.getLsbD 7, overflow := false }

/-- `SHR`: bit 0 goes to C, bit 7 is filled with 0, V is 0 (43_alu_ops.md R147, decision D15). -/
def shr8 (x : Byte) : AluResult :=
  { value := x >>> 1, carry := x.getLsbD 0, overflow := false }

end Sys2Proof.Machine
end

