-- ==== Sys2Proof/Machine/Memory.lean ====
section
/-! DEFINITION. Memory: the bytes 0x0000 to `MEM_TOP` (20_memory.md R43, 10_state.md section 1) as a list of
(address, byte) pairs in one canonical form, and its operations. -/

namespace Sys2Proof.Machine

/-- A memory: the bytes that differ from `unlistedByte`, addresses strictly rising. Every assignment of bytes to the
addresses 0x0000 to `MEM_TOP`, so every `IMAGE` of 70_reset_and_hazards.md R221, is one such list. -/
abbrev Memory := List Host.Cell

/-- What an address that no entry lists reads as. DESIGN CHOICE, unsafe: the spec leaves the bytes of `IMAGE` open
(70_reset_and_hazards.md R221); zero is an undefined opcode (30_encoding.md R78) [log 1]. -/
def unlistedByte : Byte := 0x00

/-- The byte at an address: the last one written there, or the byte memory began with (20_memory.md R51, R54). -/
def Memory.read : Memory → Nat → Byte
  | [], _ => unlistedByte
  | (k, v) :: rest, a => if k = a then v else Memory.read rest a

/-- The memory without its entry for `a`. -/
def Memory.erase (m : Memory) (a : Nat) : Memory :=
  m.filter (fun cell => cell.1 != a)

/-- Puts a new entry before the first entry of a higher address. -/
def Memory.place : Memory → Nat → Byte → Memory
  | [], a, v => [(a, v)]
  | (k, w) :: rest, a, v =>
    if a < k then (a, v) :: (k, w) :: rest else (k, w) :: Memory.place rest a v

/-- Stores a byte; a byte equal to `unlistedByte` is not listed, so that equal memories are equal lists. -/
def Memory.write (m : Memory) (a : Nat) (v : Byte) : Memory :=
  if v = unlistedByte then m.erase a else (m.erase a).place a v

/-- The canonical form: addresses implemented (20_memory.md R43) and strictly rising, no entry equal to what an
unlisted address reads as. -/
def Memory.wf : Memory → Bool
  | [] => true
  | (k, v) :: rest =>
    decide (k ≤ Config.memTop) && (v != unlistedByte) && rest.all (fun cell => decide (k < cell.1)) && Memory.wf rest

/-- A memory from any list of (address, byte) pairs, later pairs first; pairs above `MEM_TOP` are dropped. It builds an
`IMAGE` (70_reset_and_hazards.md R221) in canonical form. -/
def Memory.ofCells : List Host.Cell → Memory
  | [] => []
  | (a, v) :: rest => if a ≤ Config.memTop then (Memory.ofCells rest).write a v else Memory.ofCells rest

/-- The bytes `bs` at consecutive addresses from `a`, as pairs. -/
def cellsFrom (a : Nat) : List Byte → List Host.Cell
  | [] => []
  | b :: rest => (a, b) :: cellsFrom (a + 1) rest

end Sys2Proof.Machine
end

