-- ==== Sys2Proof/Syntax.lean ====
section
/-! DEFINITION. The 50 instructions (30_encoding.md R75), one constructor per row of spec/opcode_table.json, in the
table's order, and their assembler spelling (30_encoding.md R85 to R87, 00_scope.md R5). -/

namespace Sys2Proof

/-- An instruction. Operands carry exactly the bits the encoding gives them (30_encoding.md R73, R74): `addr` a
16-bit `[MEM]` address, `imm` an 8-bit immediate, `zp` an 8-bit zero-page address. -/
inductive Instr where
  -- Memory operations (41_memory_ops.md)
  /-- `MOV Ar [MEM]`, opcode 0x01, R101. -/
  | movArMem (addr : Addr)
  /-- `MOV Br [MEM]`, opcode 0x02, R102. -/
  | movBrMem (addr : Addr)
  /-- `MOV Ar <immed>`, opcode 0x03, R103. -/
  | movArImm (imm : Byte)
  /-- `MOV Br <immed>`, opcode 0x04, R104. -/
  | movBrImm (imm : Byte)
  /-- `MOV [MEM] Ar`, opcode 0x05, R105. -/
  | movMemAr (addr : Addr)
  /-- `MOV [MEM] Br`, opcode 0x06, R106. -/
  | movMemBr (addr : Addr)
  /-- `SWP`, opcode 0x07, R107. -/
  | swp
  /-- `LDO [MEM]`, opcode 0x08, R108. -/
  | ldo (addr : Addr)
  /-- `STO [MEM]`, opcode 0x09, R109. -/
  | sto (addr : Addr)
  /-- `LDZ Ar`, opcode 0x0C, R110. -/
  | ldzAr
  /-- `LDZ [$ZP]`, opcode 0x0A, R111. -/
  | ldzZp (zp : Byte)
  /-- `STZ [$ZP]`, opcode 0x0B, R112. -/
  | stzZp (zp : Byte)
  /-- `IO Ar`, opcode 0x31, R113. -/
  | ioAr
  /-- `IO Br`, opcode 0x32, R114. -/
  | ioBr
  -- Stack operations (42_stack_ops.md)
  /-- `PUSH Ar`, opcode 0x8B, R121. -/
  | pushAr
  /-- `PUSH <immed>`, opcode 0x87, R122. -/
  | pushImm (imm : Byte)
  /-- `POP`, opcode 0x8A, R123. -/
  | pop
  /-- `PEEK Br`, opcode 0x8E, R124. -/
  | peekBr
  /-- `PEEK <immed>`, opcode 0x88, R125. -/
  | peekImm (imm : Byte)
  /-- `POKE Br`, opcode 0x8C, R126. -/
  | pokeBr
  /-- `POKE <immed>`, opcode 0x89, R127. -/
  | pokeImm (imm : Byte)
  /-- `CALL [MEM]`, opcode 0x85, R128. -/
  | call (addr : Addr)
  /-- `RET`, opcode 0x86, R129. -/
  | ret
  -- ALU operations (43_alu_ops.md)
  /-- `ADD <immed>`, opcode 0x13, R141. -/
  | addImm (imm : Byte)
  /-- `ADD Br`, opcode 0x14, R142. -/
  | addBr
  /-- `SUB <immed>`, opcode 0x43, R143. -/
  | subImm (imm : Byte)
  /-- `SUB Br`, opcode 0x44, R144. -/
  | subBr
  /-- `CLC`, opcode 0x15, R145. -/
  | clc
  /-- `SHL`, opcode 0x28, R146. -/
  | shl
  /-- `SHR`, opcode 0x29, R147. -/
  | shr
  /-- `INC Ar`, opcode 0x2C, R148. -/
  | incAr
  /-- `INC Br`, opcode 0x2D, R149. -/
  | incBr
  /-- `DEC Ar`, opcode 0x2A, R150. -/
  | decAr
  /-- `DEC Br`, opcode 0x2B, R151. -/
  | decBr
  /-- `AND Br`, opcode 0x21, R152. -/
  | andBr
  /-- `AND <immed>`, opcode 0x25, R153. -/
  | andImm (imm : Byte)
  /-- `OR Br`, opcode 0x22, R154. -/
  | orBr
  /-- `OR <immed>`, opcode 0x26, R155. -/
  | orImm (imm : Byte)
  /-- `XOR Br`, opcode 0x23, R156. -/
  | xorBr
  /-- `XOR <immed>`, opcode 0x27, R157. -/
  | xorImm (imm : Byte)
  /-- `NOT`, opcode 0x24, R158. -/
  | notA
  -- Flow control operations (44_flow_control.md)
  /-- `JMP [MEM]`, opcode 0x81, R171. -/
  | jmp (addr : Addr)
  /-- `JZ [MEM]`, opcode 0x91, R172. -/
  | jz (addr : Addr)
  /-- `JNZ [MEM]`, opcode 0xA1, R173. -/
  | jnz (addr : Addr)
  /-- `JM [MEM]`, opcode 0xB1, R174. -/
  | jm (addr : Addr)
  /-- `JP [MEM]`, opcode 0xC1, R175. -/
  | jp (addr : Addr)
  /-- `JC [MEM]`, opcode 0xD1, R176. -/
  | jc (addr : Addr)
  /-- `JNC [MEM]`, opcode 0xE1, R177. -/
  | jnc (addr : Addr)
  /-- `JOF [MEM]`, opcode 0xD2, R178. -/
  | jof (addr : Addr)
  /-- `JNOF [MEM]`, opcode 0xE2, R179. -/
  | jnof (addr : Addr)
  deriving DecidableEq, Repr

/-- The four instruction formats (30_encoding.md R73). -/
inductive Format where
  /-- One byte, no operand byte. -/
  | f1
  /-- An opcode byte and an immediate. -/
  | f2i
  /-- An opcode byte and a zero-page address. -/
  | f2z
  /-- An opcode byte and the two bytes of an address. -/
  | f3
  deriving DecidableEq, Repr

/-- The 33 mnemonics (30_encoding.md R85). -/
inductive Mnemonic where
  | mov | swp | ldo | sto | ldz | stz | io | push | pop | peek | poke | call | ret | add | sub | clc | shl | shr | inc | dec | and | or | xor | notA | jmp | jz | jnz | jm | jp | jc | jnc | jof | jnof
  deriving DecidableEq, Repr

/-- An operand as the assembler's source writes it (00_scope.md R5, 30_encoding.md R87). -/
inductive Operand where
  /-- The register name `Ar`. -/
  | ar
  /-- The register name `Br`. -/
  | br
  /-- A `[MEM]` operand, a 16-bit memory address. -/
  | mem (addr : Addr)
  /-- An `<immed>` operand, an 8-bit value. -/
  | immed (imm : Byte)
  /-- A `[$ZP]` operand, an 8-bit zero-page address. -/
  | zeroPage (zp : Byte)
  deriving DecidableEq, Repr

/-- The kinds of operand, by which one mnemonic's opcodes are told apart (30_encoding.md R86). -/
inductive OperandKind where
  | ar | br | mem | immed | zeroPage
  deriving DecidableEq, Repr

/-- The kind of an operand. -/
def Operand.kind : Operand → OperandKind
  | .ar => .ar
  | .br => .br
  | .mem _ => .mem
  | .immed _ => .immed
  | .zeroPage _ => .zeroPage

/-- An instruction as it is written: a mnemonic and its operands, destination first (30_encoding.md R85). It may be
ill-formed: `PUSH Br` can be written and has no opcode (30_encoding.md R86). -/
structure SourceInstr where
  mnemonic : Mnemonic
  operands : List Operand
  deriving DecidableEq, Repr

/-- How an instruction is written (30_encoding.md R75, column "Assembler form"). -/
def Instr.spelling : Instr → SourceInstr
  | .movArMem addr => ⟨.mov, [.ar, .mem addr]⟩
  | .movBrMem addr => ⟨.mov, [.br, .mem addr]⟩
  | .movArImm imm => ⟨.mov, [.ar, .immed imm]⟩
  | .movBrImm imm => ⟨.mov, [.br, .immed imm]⟩
  | .movMemAr addr => ⟨.mov, [.mem addr, .ar]⟩
  | .movMemBr addr => ⟨.mov, [.mem addr, .br]⟩
  | .swp => ⟨.swp, []⟩
  | .ldo addr => ⟨.ldo, [.mem addr]⟩
  | .sto addr => ⟨.sto, [.mem addr]⟩
  | .ldzAr => ⟨.ldz, [.ar]⟩
  | .ldzZp zp => ⟨.ldz, [.zeroPage zp]⟩
  | .stzZp zp => ⟨.stz, [.zeroPage zp]⟩
  | .ioAr => ⟨.io, [.ar]⟩
  | .ioBr => ⟨.io, [.br]⟩
  | .pushAr => ⟨.push, [.ar]⟩
  | .pushImm imm => ⟨.push, [.immed imm]⟩
  | .pop => ⟨.pop, []⟩
  | .peekBr => ⟨.peek, [.br]⟩
  | .peekImm imm => ⟨.peek, [.immed imm]⟩
  | .pokeBr => ⟨.poke, [.br]⟩
  | .pokeImm imm => ⟨.poke, [.immed imm]⟩
  | .call addr => ⟨.call, [.mem addr]⟩
  | .ret => ⟨.ret, []⟩
  | .addImm imm => ⟨.add, [.immed imm]⟩
  | .addBr => ⟨.add, [.br]⟩
  | .subImm imm => ⟨.sub, [.immed imm]⟩
  | .subBr => ⟨.sub, [.br]⟩
  | .clc => ⟨.clc, []⟩
  | .shl => ⟨.shl, []⟩
  | .shr => ⟨.shr, []⟩
  | .incAr => ⟨.inc, [.ar]⟩
  | .incBr => ⟨.inc, [.br]⟩
  | .decAr => ⟨.dec, [.ar]⟩
  | .decBr => ⟨.dec, [.br]⟩
  | .andBr => ⟨.and, [.br]⟩
  | .andImm imm => ⟨.and, [.immed imm]⟩
  | .orBr => ⟨.or, [.br]⟩
  | .orImm imm => ⟨.or, [.immed imm]⟩
  | .xorBr => ⟨.xor, [.br]⟩
  | .xorImm imm => ⟨.xor, [.immed imm]⟩
  | .notA => ⟨.notA, []⟩
  | .jmp addr => ⟨.jmp, [.mem addr]⟩
  | .jz addr => ⟨.jz, [.mem addr]⟩
  | .jnz addr => ⟨.jnz, [.mem addr]⟩
  | .jm addr => ⟨.jm, [.mem addr]⟩
  | .jp addr => ⟨.jp, [.mem addr]⟩
  | .jc addr => ⟨.jc, [.mem addr]⟩
  | .jnc addr => ⟨.jnc, [.mem addr]⟩
  | .jof addr => ⟨.jof, [.mem addr]⟩
  | .jnof addr => ⟨.jnof, [.mem addr]⟩

end Sys2Proof
end

