-- ==== Sys2Proof/Machine/State.lean ====
section
/-! DEFINITION. The state of the machine (10_state.md section 1), its faults and its state after reset
(70_reset_and_hazards.md R220, R221). -/

namespace Sys2Proof.Machine

/-- The state of the processor, its memory and its console: the table of 10_state.md section 1. -/
structure State where
  /-- Register A (10_state.md R10). -/
  a : Byte
  /-- Register B (10_state.md R11). -/
  b : Byte
  /-- Program counter, the address of the opcode byte of the instruction being executed (10_state.md R13). -/
  pc : Addr
  /-- Stack pointer, the address of the first free stack cell (10_state.md R15). -/
  sp : Addr
  /-- Base pointer, the address of the saved old-BP high byte (10_state.md R16). -/
  bp : Addr
  /-- Flag Z: the last ALU result was zero (10_state.md R17). -/
  flagZ : Bool
  /-- Flag M, minus: the last ALU result had bit 7 set (10_state.md R17). -/
  flagM : Bool
  /-- Flag C: carry occurred on the last ALU operation (10_state.md R18). -/
  flagC : Bool
  /-- Flag V: overflow occurred on the last ALU operation (10_state.md R19). -/
  flagV : Bool
  /-- Memory 0x0000 to `MEM_TOP` (20_memory.md R40, R43). -/
  mem : Memory
  /-- What `IO` has printed, oldest first (60_exceptions.md R200). -/
  console : List Byte
  deriving DecidableEq, Repr

/-- The two model faults (60_exceptions.md R191). They are no hardware traps: each says that the spec gives the
program no meaning from here. The registers, flags, memory and console of the faulted state are those of the state the
step started from (20_memory.md R52); `RunState.faulted` keeps that state beside the fault [log 32]. -/
inductive Fault where
  /-- `Fault(IllegalOpcode)`: the step's decode raises it when the byte fetched at PC is one of the 206 undefined
  opcodes (60_exceptions.md R192). It records PC and the byte. Safe: no behaviour is assumed [log 19]. -/
  | illegalOpcode (pc : Addr) (opcode : Byte)
  /-- `Fault(AccessOutOfRange)`: the fetch and every data access raise it for an address above `MEM_TOP`
  (60_exceptions.md R193). It records PC and the address. Safe: no behaviour is assumed [log 18]. -/
  | accessOutOfRange (pc : Addr) (addr : Addr)
  deriving DecidableEq, Repr

/-- Refusals. Every instruction of the table has its meaning, so no step answers with one. -/
inductive Refusal where
  /-- An arm of `exec` that has no meaning yet would raise it. Safe: the run stops. No arm does. -/
  | notModelled (mnemonic : String)
  deriving DecidableEq, Repr

/-- What an instruction or a step answers. -/
abbrev Result := Host.Outcome State Fault Refusal

/-- The values that 70_reset_and_hazards.md R220 leaves "unspecified": free inputs of a run. -/
structure ResetValues where
  a : Byte
  b : Byte
  bp : Addr
  flagZ : Bool
  flagM : Bool
  flagC : Bool
  flagV : Bool
  deriving DecidableEq, Repr

/-- The state in which a run begins, for each value of its free inputs (70_reset_and_hazards.md R220) and each
`IMAGE` (70_reset_and_hazards.md R221). A claim about a program quantifies over both. -/
def State.boot (r : ResetValues) (image : Memory) : State where
  a := r.a
  b := r.b
  pc := Config.resetPc
  sp := Config.resetSp
  bp := r.bp
  flagZ := r.flagZ
  flagM := r.flagM
  flagC := r.flagC
  flagV := r.flagV
  mem := image
  console := []

/-- The one value this model names for each unspecified reset value. DESIGN CHOICE, unsafe: the spec gives none and
says that none may be assumed [log 2]. -/
def ResetValues.zeros : ResetValues where
  a := 0
  b := 0
  bp := 0
  flagZ := false
  flagM := false
  flagC := false
  flagV := false

/-- The machine right after reset: the values of 70_reset_and_hazards.md R220, the named value for each unspecified
one [log 2], and a memory with nothing listed [log 1]. -/
def State.reset : State :=
  State.boot ResetValues.zeros []

end Sys2Proof.Machine
end

