-- ==== Sys2Proof/Machine/Ops.lean ====
section
/-! DEFINITION. The named operations over registers, flags, memory and console (00_scope.md R4) and the one way an
instruction faults. The hardware has no exception entry and no return from one (60_exceptions.md R190, R196): the
only transition that is no instruction is `raise Fault` (60_exceptions.md R191), here `State.checked`. -/

namespace Sys2Proof.Machine

/-- Whether an address is implemented (20_memory.md R43). -/
def inRange (addr : Addr) : Bool := decide (addr.toNat ≤ Config.memTop)

/-- Checks data addresses in the order given (70_reset_and_hazards.md R224 (5), 60_exceptions.md R195): the first one
above `MEM_TOP` raises `Fault(AccessOutOfRange)` and nothing is changed (20_memory.md R52); with none, `r`. -/
def State.checked (s : State) : List Addr → Result → Result
  | [], r => r
  | addr :: rest, r => if inRange addr then s.checked rest r else .fault (.accessOutOfRange s.pc addr)

/-- `A <- v`. -/
def State.setA (s : State) (v : Byte) : State := { s with a := v }

/-- `B <- v`. -/
def State.setB (s : State) (v : Byte) : State := { s with b := v }

/-- `PC <- addr`. -/
def State.setPc (s : State) (addr : Addr) : State := { s with pc := addr }

/-- `PC <- add16(PC, n)` (10_state.md R14, wrap by decision D8). -/
def State.advance (s : State) (n : Addr) : State := { s with pc := s.pc + n }

/-- `SP <- addr`. -/
def State.setSp (s : State) (addr : Addr) : State := { s with sp := addr }

/-- `BP <- addr`. -/
def State.setBp (s : State) (addr : Addr) : State := { s with bp := addr }

/-- Writes all four flags from an ALU result (43_alu_ops.md R140). -/
def State.setFlags (s : State) (x : AluResult) : State :=
  { s with flagZ := zeroFlag x.value, flagM := minusFlag x.value, flagC := x.carry, flagV := x.overflow }

/-- `C <- 0; V <- 0`, the effect of `CLC` (43_alu_ops.md R145). -/
def State.clearCV (s : State) : State := { s with flagC := false, flagV := false }

/-- `MemRead(addr, 1)` of a checked address (00_scope.md R4). -/
def State.readByte (s : State) (addr : Addr) : Byte := s.mem.read addr.toNat

/-- `MemRead(addr, 2)`: low byte at the lower address (00_scope.md R4). -/
def State.readWord (s : State) (addr : Addr) : Addr :=
  joinBytes (s.readByte (addr + 1)) (s.readByte addr)

/-- `MemWrite(addr, 1, v)` to a checked address (00_scope.md R4). -/
def State.writeByte (s : State) (addr : Addr) (v : Byte) : State :=
  { s with mem := s.mem.write addr.toNat v }

/-- `MemWrite(addr, 2, w)`: low byte at the lower address (00_scope.md R4). -/
def State.writeWord (s : State) (addr : Addr) (w : Addr) : State :=
  (s.writeByte addr (loByte w)).writeByte (addr + 1) (hiByte w)

/-- `ConsoleOut(v)`: appends `v` to the console (60_exceptions.md R200) [log 26]. -/
def State.emit (s : State) (v : Byte) : State := { s with console := s.console ++ [v] }

/-- The result goes to A and the flags follow it. -/
def State.aluToA (s : State) (x : AluResult) : State := (s.setA x.value).setFlags x

/-- The result goes to B and the flags follow it (43_alu_ops.md R149, R151). -/
def State.aluToB (s : State) (x : AluResult) : State := (s.setB x.value).setFlags x

/-- A jump of three bytes: to `addr` when the condition holds, else to the next instruction (44_flow_control.md R170).
`addr` is not checked here. -/
def State.jumpIf (s : State) (cond : Bool) (addr : Addr) : State :=
  if cond then s.setPc addr else s.advance 3

end Sys2Proof.Machine
end

