-- ==== Sys2Proof/Machine/Operands.lean ====
section
/-! DEFINITION. The operand forms: effective addresses (20_memory.md R46, R47, R53, 41_memory_ops.md R100,
42_stack_ops.md R120, R129) and the ALU's operations on the operands of a state (43_alu_ops.md R140). -/

namespace Sys2Proof.Machine

/-- The offset that a byte of B stands for: extended with zeros, or with its sign under `INDEX_B_SIGNED`
(41_memory_ops.md R100, decision D7). -/
def indexOffset (signed : Bool) (v : Byte) : Addr := if signed then sext16 v else zext16 v

/-- The address "with offset in B" from a base (41_memory_ops.md R100); the sum wraps (20_memory.md R53) [log 7]. -/
def State.indexed (s : State) (base : Addr) : Addr := base + indexOffset Config.indexBSigned s.b

/-- The address of the second byte of the pointer at `zp`: the next address, or the next byte of the zero page under
`ZP_WRAP` (20_memory.md R47, decision D6). They differ for `zp` = 0xFF only. -/
def zpSecond (wrap : Bool) (zp : Byte) : Addr := if wrap then zext16 (zp + 1) else zext16 zp + 1

/-- The 16-bit pointer held at zero-page address `zp` (20_memory.md R47). -/
def State.zpPointer (s : State) (zp : Byte) : Addr :=
  orderPair Config.zpptrLowFirst (s.readByte (zext16 zp)) (s.readByte (zpSecond Config.zpWrap zp))

/-- The address reached through the pointer at `zp` with offset in B (41_memory_ops.md R110 to R112). -/
def State.zpIndexed (s : State) (zp : Byte) : Addr := s.indexed (s.zpPointer zp)

/-- The addresses an access through the pointer at `zp` touches, in the order it needs them: the pointer's two bytes,
then the effective address (20_memory.md R50, 60_exceptions.md R195). -/
def State.zpAddrs (s : State) (zp : Byte) : List Addr :=
  [zext16 zp, zpSecond Config.zpWrap zp, s.zpIndexed zp]

/-- The address at a signed 8-bit offset from BP (42_stack_ops.md R120 (c)). -/
def State.frameAddr (s : State) (offset : Byte) : Addr := s.bp + sext16 offset

/-- The address of the lowest cell of the frame that `RET` unwinds: BP - 3, or SP - 4 unless `RET_USES_BP`
(42_stack_ops.md R129, decision D19). -/
def retFrame (usesBp : Bool) (sp bp : Addr) : Addr := if usesBp then bp - 3 else sp - 4

/-- The frame cell from which `RET` starts in this state. -/
def State.retBase (s : State) : Addr := retFrame Config.retUsesBp s.sp s.bp

/-- Four consecutive addresses in ascending order, the cells of a saved frame (42_stack_ops.md R128, R129). -/
def fourFrom (addr : Addr) : List Addr := [addr, addr + 1, addr + 2, addr + 3]

/-- Addition as the instructions do it in this state (43_alu_ops.md R140). -/
def State.aluAdd (s : State) (x y : Byte) : AluResult :=
  add8 (carryIn Config.addCarryIn s.flagC) x y

/-- Subtraction as the instructions do it in this state (43_alu_ops.md R140). -/
def State.aluSub (s : State) (x y : Byte) : AluResult :=
  sub8 Config.subCIsBorrow (borrowIn Config.subBorrowIn Config.subCIsBorrow s.flagC) x y

end Sys2Proof.Machine
end

