-- ==== Sys2Proof/Machine/AluFamily.lean ====
section
/-! DEFINITION. Meanings of the ALU operations (43_alu_ops.md). None touches memory, SP or BP. -/

namespace Sys2Proof.Machine

/-- `ADD <immed>` (43_alu_ops.md R141): 43_alu_ops.md R140. -/
def execAddImm (imm : Byte) (s : State) : Result :=
  .next ((s.aluToA (s.aluAdd s.a imm)).advance 2)

/-- `ADD Br` (43_alu_ops.md R142): 43_alu_ops.md R140. -/
def execAddBr (s : State) : Result :=
  .next ((s.aluToA (s.aluAdd s.a s.b)).advance 1)

/-- `SUB <immed>` (43_alu_ops.md R143): 43_alu_ops.md R140. -/
def execSubImm (imm : Byte) (s : State) : Result :=
  .next ((s.aluToA (s.aluSub s.a imm)).advance 2)

/-- `SUB Br` (43_alu_ops.md R144): 43_alu_ops.md R140. -/
def execSubBr (s : State) : Result :=
  .next ((s.aluToA (s.aluSub s.a s.b)).advance 1)

/-- `CLC` (43_alu_ops.md R145): Z and M are left (decision D10) [log 9]. -/
def execClc (s : State) : Result :=
  .next (s.clearCV.advance 1)

/-- `SHL` (43_alu_ops.md R146): a shift, not a rotate [log 14]. -/
def execShl (s : State) : Result :=
  .next ((s.aluToA (shl8 s.a)).advance 1)

/-- `SHR` (43_alu_ops.md R147): a logical shift [log 14]. -/
def execShr (s : State) : Result :=
  .next ((s.aluToA (shr8 s.a)).advance 1)

/-- `INC Ar` (43_alu_ops.md R148): exactly as `ADD <immed>` of 1 [log 12]. -/
def execIncAr (s : State) : Result :=
  .next ((s.aluToA (s.aluAdd s.a 1)).advance 1)

/-- `INC Br` (43_alu_ops.md R149): flags from the new B [log 12]. -/
def execIncBr (s : State) : Result :=
  .next ((s.aluToB (s.aluAdd s.b 1)).advance 1)

/-- `DEC Ar` (43_alu_ops.md R150): exactly as `SUB <immed>` of 1 [log 12]. -/
def execDecAr (s : State) : Result :=
  .next ((s.aluToA (s.aluSub s.a 1)).advance 1)

/-- `DEC Br` (43_alu_ops.md R151): flags from the new B [log 12]. -/
def execDecBr (s : State) : Result :=
  .next ((s.aluToB (s.aluSub s.b 1)).advance 1)

/-- `AND Br` (43_alu_ops.md R152): the result goes to A [log 39], C and V are 0 [log 13]. -/
def execAndBr (s : State) : Result :=
  .next ((s.aluToA (logic8 (s.a &&& s.b))).advance 1)

/-- `AND <immed>` (43_alu_ops.md R153): C and V are 0 [log 13]. -/
def execAndImm (imm : Byte) (s : State) : Result :=
  .next ((s.aluToA (logic8 (s.a &&& imm))).advance 2)

/-- `OR Br` (43_alu_ops.md R154): the result goes to A [log 39], C and V are 0 [log 13]. -/
def execOrBr (s : State) : Result :=
  .next ((s.aluToA (logic8 (s.a ||| s.b))).advance 1)

/-- `OR <immed>` (43_alu_ops.md R155): C and V are 0 [log 13]. -/
def execOrImm (imm : Byte) (s : State) : Result :=
  .next ((s.aluToA (logic8 (s.a ||| imm))).advance 2)

/-- `XOR Br` (43_alu_ops.md R156): the result goes to A [log 39], C and V are 0 [log 13]. -/
def execXorBr (s : State) : Result :=
  .next ((s.aluToA (logic8 (s.a ^^^ s.b))).advance 1)

/-- `XOR <immed>` (43_alu_ops.md R157): C and V are 0 [log 13]. -/
def execXorImm (imm : Byte) (s : State) : Result :=
  .next ((s.aluToA (logic8 (s.a ^^^ imm))).advance 2)

/-- `NOT` (43_alu_ops.md R158): one's complement; C and V are 0 [log 13]. -/
def execNotA (s : State) : Result :=
  .next ((s.aluToA (logic8 (s.a ^^^ 0xFF))).advance 1)

end Sys2Proof.Machine
end

