-- ==== Sys2Proof/Machine/FlowFamily.lean ====
section
/-! DEFINITION. Meanings of the jumps (44_flow_control.md). None writes anything but PC. -/

namespace Sys2Proof.Machine

/-- `JMP [MEM]` (44_flow_control.md R171): condition: unconditional (R180). -/
def execJmp (addr : Addr) (s : State) : Result :=
  .next (s.jumpIf true addr)

/-- `JZ [MEM]` (44_flow_control.md R172): condition: Z = 1 (R180). -/
def execJz (addr : Addr) (s : State) : Result :=
  .next (s.jumpIf s.flagZ addr)

/-- `JNZ [MEM]` (44_flow_control.md R173): condition: Z = 0 (R180). -/
def execJnz (addr : Addr) (s : State) : Result :=
  .next (s.jumpIf (!s.flagZ) addr)

/-- `JM [MEM]` (44_flow_control.md R174): condition: M = 1 (R180). -/
def execJm (addr : Addr) (s : State) : Result :=
  .next (s.jumpIf s.flagM addr)

/-- `JP [MEM]` (44_flow_control.md R175): condition: Z = 0 and M = 0 (R180). -/
def execJp (addr : Addr) (s : State) : Result :=
  .next (s.jumpIf (!s.flagZ && !s.flagM) addr)

/-- `JC [MEM]` (44_flow_control.md R176): condition: C = 1 (R180). -/
def execJc (addr : Addr) (s : State) : Result :=
  .next (s.jumpIf s.flagC addr)

/-- `JNC [MEM]` (44_flow_control.md R177): condition: C = 0 (R180). -/
def execJnc (addr : Addr) (s : State) : Result :=
  .next (s.jumpIf (!s.flagC) addr)

/-- `JOF [MEM]` (44_flow_control.md R178): condition: V = 1 (R180). -/
def execJof (addr : Addr) (s : State) : Result :=
  .next (s.jumpIf s.flagV addr)

/-- `JNOF [MEM]` (44_flow_control.md R179): condition: V = 0 (R180). -/
def execJnof (addr : Addr) (s : State) : Result :=
  .next (s.jumpIf (!s.flagV) addr)

end Sys2Proof.Machine
end

