-- ==== Sys2Proof/Machine/MemoryFamily.lean ====
section
/-! DEFINITION. Meanings of the memory operations MOV, SWP, LDO, STO, LDZ, STZ and IO (41_memory_ops.md). No flag, SP or BP is
written here (10_state.md R20). -/

namespace Sys2Proof.Machine

/-- `MOV Ar [MEM]` (41_memory_ops.md R101): loads A from memory. -/
def execMovArMem (addr : Addr) (s : State) : Result :=
  s.checked [addr] (.next ((s.setA (s.readByte addr)).advance 3))

/-- `MOV Br [MEM]` (41_memory_ops.md R102): loads B from memory. -/
def execMovBrMem (addr : Addr) (s : State) : Result :=
  s.checked [addr] (.next ((s.setB (s.readByte addr)).advance 3))

/-- `MOV Ar <immed>` (41_memory_ops.md R103): no flag is written. -/
def execMovArImm (imm : Byte) (s : State) : Result :=
  .next ((s.setA imm).advance 2)

/-- `MOV Br <immed>` (41_memory_ops.md R104): no flag is written. -/
def execMovBrImm (imm : Byte) (s : State) : Result :=
  .next ((s.setB imm).advance 2)

/-- `MOV [MEM] Ar` (41_memory_ops.md R105): any implemented address is writable (20_memory.md R42). -/
def execMovMemAr (addr : Addr) (s : State) : Result :=
  s.checked [addr] (.next ((s.writeByte addr s.a).advance 3))

/-- `MOV [MEM] Br` (41_memory_ops.md R106): any implemented address is writable (20_memory.md R42). -/
def execMovMemBr (addr : Addr) (s : State) : Result :=
  s.checked [addr] (.next ((s.writeByte addr s.b).advance 3))

/-- `SWP` (41_memory_ops.md R107): both right-hand sides are the old values. -/
def execSwp (s : State) : Result :=
  .next (((s.setA s.b).setB s.a).advance 1)

/-- `LDO [MEM]` (41_memory_ops.md R108): `addr` itself is not checked. -/
def execLdo (addr : Addr) (s : State) : Result :=
  s.checked [s.indexed addr] (.next ((s.setA (s.readByte (s.indexed addr))).advance 3))

/-- `STO [MEM]` (41_memory_ops.md R109): `addr` itself is not checked. -/
def execSto (addr : Addr) (s : State) : Result :=
  s.checked [s.indexed addr] (.next ((s.writeByte (s.indexed addr) s.a).advance 3))

/-- `LDZ Ar` (41_memory_ops.md R110): the old A names the pointer and is then overwritten. -/
def execLdzAr (s : State) : Result :=
  s.checked (s.zpAddrs s.a) (.next ((s.setA (s.readByte (s.zpIndexed s.a))).advance 1))

/-- `LDZ [$ZP]` (41_memory_ops.md R111): the pointer is not modified. -/
def execLdzZp (zp : Byte) (s : State) : Result :=
  s.checked (s.zpAddrs zp) (.next ((s.setA (s.readByte (s.zpIndexed zp))).advance 2))

/-- `STZ [$ZP]` (41_memory_ops.md R112): the pointer is read before the store. -/
def execStzZp (zp : Byte) (s : State) : Result :=
  s.checked (s.zpAddrs zp) (.next ((s.writeByte (s.zpIndexed zp) s.a).advance 2))

/-- `IO Ar` (41_memory_ops.md R113): output only (60_exceptions.md R200, R201). -/
def execIoAr (s : State) : Result :=
  .next ((s.emit s.a).advance 1)

/-- `IO Br` (41_memory_ops.md R114): output only (60_exceptions.md R200, R201). -/
def execIoBr (s : State) : Result :=
  .next ((s.emit s.b).advance 1)

end Sys2Proof.Machine
end

