-- ==== Sys2Proof/Machine/StackFamily.lean ====
section
/-! DEFINITION. Meanings of the stack operations PUSH, POP, PEEK, POKE, CALL and RET (42_stack_ops.md). No flag is written here
(10_state.md R20). -/

namespace Sys2Proof.Machine

/-- `PUSH Ar` (42_stack_ops.md R121): no bound on the stack (10_state.md R15). -/
def execPushAr (s : State) : Result :=
  s.checked [s.sp] (.next (((s.writeByte s.sp s.a).setSp (s.sp + 1)).advance 1))

/-- `PUSH <immed>` (42_stack_ops.md R122): no bound on the stack (10_state.md R15). -/
def execPushImm (imm : Byte) (s : State) : Result :=
  s.checked [s.sp] (.next (((s.writeByte s.sp imm).setSp (s.sp + 1)).advance 2))

/-- `POP` (42_stack_ops.md R123): decrement, then read; the popped cell keeps its content [log 15]. -/
def execPop (s : State) : Result :=
  s.checked [s.sp - 1] (.next (((s.setA (s.readByte (s.sp - 1))).setSp (s.sp - 1)).advance 1))

/-- `PEEK Br` (42_stack_ops.md R124): B is a signed offset. -/
def execPeekBr (s : State) : Result :=
  s.checked [s.frameAddr s.b] (.next ((s.setA (s.readByte (s.frameAddr s.b))).advance 1))

/-- `PEEK <immed>` (42_stack_ops.md R125): `imm` is a signed offset. -/
def execPeekImm (imm : Byte) (s : State) : Result :=
  s.checked [s.frameAddr imm] (.next ((s.setA (s.readByte (s.frameAddr imm))).advance 2))

/-- `POKE Br` (42_stack_ops.md R126): writes the cell, not BP (90_conflicts.md C4). -/
def execPokeBr (s : State) : Result :=
  s.checked [s.frameAddr s.b] (.next ((s.writeByte (s.frameAddr s.b) s.a).advance 1))

/-- `POKE <immed>` (42_stack_ops.md R127): writes the cell, not BP (90_conflicts.md C4). -/
def execPokeImm (imm : Byte) (s : State) : Result :=
  s.checked [s.frameAddr imm] (.next ((s.writeByte (s.frameAddr imm) s.a).advance 2))

/-- `CALL [MEM]` (42_stack_ops.md R128): saves the address after the `CALL` [log 16] and the old BP; `addr` is not checked. -/
def execCall (addr : Addr) (s : State) : Result :=
  s.checked (fourFrom s.sp) (.next (((((s.writeWord s.sp (s.pc + 3)).writeWord (s.sp + 2) s.bp).setBp (s.sp + 3)).setSp
    (s.sp + 4)).setPc addr))

/-- `RET` (42_stack_ops.md R129): undoes `CALL`; locals are dropped [log 17]. -/
def execRet (s : State) : Result :=
  s.checked (fourFrom s.retBase) (.next (((s.setPc (s.readWord s.retBase)).setBp (s.readWord (s.retBase + 2))).setSp
    s.retBase))

end Sys2Proof.Machine
end

