-- ==== Sys2Proof/Machine/Dispatch.lean ====
section
/-! DEFINITION. One arm per instruction, each one call of its meaning. -/

namespace Sys2Proof.Machine

def exec (i : Instr) (s : State) : Host.Outcome State Fault Refusal :=
  match i with
  | .movArMem addr => Sys2Proof.Machine.execMovArMem addr s
  | .movBrMem addr => Sys2Proof.Machine.execMovBrMem addr s
  | .movArImm imm => Sys2Proof.Machine.execMovArImm imm s
  | .movBrImm imm => Sys2Proof.Machine.execMovBrImm imm s
  | .movMemAr addr => Sys2Proof.Machine.execMovMemAr addr s
  | .movMemBr addr => Sys2Proof.Machine.execMovMemBr addr s
  | .swp => Sys2Proof.Machine.execSwp s
  | .ldo addr => Sys2Proof.Machine.execLdo addr s
  | .sto addr => Sys2Proof.Machine.execSto addr s
  | .ldzAr => Sys2Proof.Machine.execLdzAr s
  | .ldzZp zp => Sys2Proof.Machine.execLdzZp zp s
  | .stzZp zp => Sys2Proof.Machine.execStzZp zp s
  | .ioAr => Sys2Proof.Machine.execIoAr s
  | .ioBr => Sys2Proof.Machine.execIoBr s
  | .pushAr => Sys2Proof.Machine.execPushAr s
  | .pushImm imm => Sys2Proof.Machine.execPushImm imm s
  | .pop => Sys2Proof.Machine.execPop s
  | .peekBr => Sys2Proof.Machine.execPeekBr s
  | .peekImm imm => Sys2Proof.Machine.execPeekImm imm s
  | .pokeBr => Sys2Proof.Machine.execPokeBr s
  | .pokeImm imm => Sys2Proof.Machine.execPokeImm imm s
  | .call addr => Sys2Proof.Machine.execCall addr s
  | .ret => Sys2Proof.Machine.execRet s
  | .addImm imm => Sys2Proof.Machine.execAddImm imm s
  | .addBr => Sys2Proof.Machine.execAddBr s
  | .subImm imm => Sys2Proof.Machine.execSubImm imm s
  | .subBr => Sys2Proof.Machine.execSubBr s
  | .clc => Sys2Proof.Machine.execClc s
  | .shl => Sys2Proof.Machine.execShl s
  | .shr => Sys2Proof.Machine.execShr s
  | .incAr => Sys2Proof.Machine.execIncAr s
  | .incBr => Sys2Proof.Machine.execIncBr s
  | .decAr => Sys2Proof.Machine.execDecAr s
  | .decBr => Sys2Proof.Machine.execDecBr s
  | .andBr => Sys2Proof.Machine.execAndBr s
  | .andImm imm => Sys2Proof.Machine.execAndImm imm s
  | .orBr => Sys2Proof.Machine.execOrBr s
  | .orImm imm => Sys2Proof.Machine.execOrImm imm s
  | .xorBr => Sys2Proof.Machine.execXorBr s
  | .xorImm imm => Sys2Proof.Machine.execXorImm imm s
  | .notA => Sys2Proof.Machine.execNotA s
  | .jmp addr => Sys2Proof.Machine.execJmp addr s
  | .jz addr => Sys2Proof.Machine.execJz addr s
  | .jnz addr => Sys2Proof.Machine.execJnz addr s
  | .jm addr => Sys2Proof.Machine.execJm addr s
  | .jp addr => Sys2Proof.Machine.execJp addr s
  | .jc addr => Sys2Proof.Machine.execJc addr s
  | .jnc addr => Sys2Proof.Machine.execJnc addr s
  | .jof addr => Sys2Proof.Machine.execJof addr s
  | .jnof addr => Sys2Proof.Machine.execJnof addr s

end Sys2Proof.Machine
end

