-- ==== Sys2Proof/WellFormed.lean ====
section
/-! DEFINITION. Which instructions are well formed. An operand of `Instr` has exactly the width of its field and no
field is reserved (93_implementation_defined.md section 2), so every bit pattern of an operand is admitted; what can
be ill-formed is the WRITTEN instruction, whose mnemonic and operand kinds must be one of the 50 forms of
30_encoding.md R75 (R86: there is no `PUSH Br`, no `POP` into B, no `ADD Ar` and so on). -/

namespace Sys2Proof

/-- The operand kinds each mnemonic admits (30_encoding.md R86). -/
def Mnemonic.forms : Mnemonic → List (List OperandKind)
  | .mov => [[.ar, .mem], [.br, .mem], [.ar, .immed], [.br, .immed], [.mem, .ar], [.mem, .br]]
  | .swp => [[]]
  | .ldo => [[.mem]]
  | .sto => [[.mem]]
  | .ldz => [[.ar], [.zeroPage]]
  | .stz => [[.zeroPage]]
  | .io => [[.ar], [.br]]
  | .push => [[.ar], [.immed]]
  | .pop => [[]]
  | .peek => [[.br], [.immed]]
  | .poke => [[.br], [.immed]]
  | .call => [[.mem]]
  | .ret => [[]]
  | .add => [[.immed], [.br]]
  | .sub => [[.immed], [.br]]
  | .clc => [[]]
  | .shl => [[]]
  | .shr => [[]]
  | .inc => [[.ar], [.br]]
  | .dec => [[.ar], [.br]]
  | .and => [[.br], [.immed]]
  | .or => [[.br], [.immed]]
  | .xor => [[.br], [.immed]]
  | .notA => [[]]
  | .jmp => [[.mem]]
  | .jz => [[.mem]]
  | .jnz => [[.mem]]
  | .jm => [[.mem]]
  | .jp => [[.mem]]
  | .jc => [[.mem]]
  | .jnc => [[.mem]]
  | .jof => [[.mem]]
  | .jnof => [[.mem]]

/-- A written instruction is well formed when its operand kinds are one of its mnemonic's forms (30_encoding.md R86). -/
def SourceInstr.wellFormed (src : SourceInstr) : Bool :=
  src.mnemonic.forms.contains (src.operands.map Operand.kind)

/-- An instruction is well formed when the way it is written is (30_encoding.md R93: every mnemonic maps to exactly
the opcodes of R75). -/
def Instr.wellFormed (i : Instr) : Bool :=
  i.spelling.wellFormed

end Sys2Proof
end

