-- ==== Sys2Proof/Decode.lean ====
section
/-! DEFINITION. The decoder and the encoder, both written from the opcode table (30_encoding.md R75) and the formats
(30_encoding.md R73, R74), and the host's view of the decoder on a table word. -/

namespace Sys2Proof

/-- Length in bytes of each format, the "Memory bytes" of the source (30_encoding.md R73). -/
def Format.length : Format → Nat
  | .f1 => 1
  | .f2i => 2
  | .f2z => 2
  | .f3 => 3

/-- What an opcode byte selects: a format, and the instruction its operand makes (30_encoding.md R70, R76). -/
inductive Form where
  | f1 (i : Instr)
  | f2i (make : Byte → Instr)
  | f2z (make : Byte → Instr)
  | f3 (make : Addr → Instr)

/-- The format of a form. -/
def Form.format : Form → Format
  | .f1 _ => .f1
  | .f2i _ => .f2i
  | .f2z _ => .f2z
  | .f3 _ => .f3

/-- The opcode table of 30_encoding.md R75; every other byte is undefined (R78). Where the source's symbolic name and
its hexadecimal value disagree the value is followed (90_conflicts.md C1, C2) [log 35]. -/
def opcodeForm (op : Byte) : Option Form :=
  match op.toNat with
  | 0x01 => some (.f3 .movArMem)
  | 0x02 => some (.f3 .movBrMem)
  | 0x03 => some (.f2i .movArImm)
  | 0x04 => some (.f2i .movBrImm)
  | 0x05 => some (.f3 .movMemAr)
  | 0x06 => some (.f3 .movMemBr)
  | 0x07 => some (.f1 .swp)
  | 0x08 => some (.f3 .ldo)
  | 0x09 => some (.f3 .sto)
  | 0x0C => some (.f1 .ldzAr)
  | 0x0A => some (.f2z .ldzZp)
  | 0x0B => some (.f2z .stzZp)
  | 0x31 => some (.f1 .ioAr)
  | 0x32 => some (.f1 .ioBr)
  | 0x8B => some (.f1 .pushAr)
  | 0x87 => some (.f2i .pushImm)
  | 0x8A => some (.f1 .pop)
  | 0x8E => some (.f1 .peekBr)
  | 0x88 => some (.f2i .peekImm)
  | 0x8C => some (.f1 .pokeBr)
  | 0x89 => some (.f2i .pokeImm)
  | 0x85 => some (.f3 .call)
  | 0x86 => some (.f1 .ret)
  | 0x13 => some (.f2i .addImm)
  | 0x14 => some (.f1 .addBr)
  | 0x43 => some (.f2i .subImm)
  | 0x44 => some (.f1 .subBr)
  | 0x15 => some (.f1 .clc)
  | 0x28 => some (.f1 .shl)
  | 0x29 => some (.f1 .shr)
  | 0x2C => some (.f1 .incAr)
  | 0x2D => some (.f1 .incBr)
  | 0x2A => some (.f1 .decAr)
  | 0x2B => some (.f1 .decBr)
  | 0x21 => some (.f1 .andBr)
  | 0x25 => some (.f2i .andImm)
  | 0x22 => some (.f1 .orBr)
  | 0x26 => some (.f2i .orImm)
  | 0x23 => some (.f1 .xorBr)
  | 0x27 => some (.f2i .xorImm)
  | 0x24 => some (.f1 .notA)
  | 0x81 => some (.f3 .jmp)
  | 0x91 => some (.f3 .jz)
  | 0xA1 => some (.f3 .jnz)
  | 0xB1 => some (.f3 .jm)
  | 0xC1 => some (.f3 .jp)
  | 0xD1 => some (.f3 .jc)
  | 0xE1 => some (.f3 .jnc)
  | 0xD2 => some (.f3 .jof)
  | 0xE2 => some (.f3 .jnof)
  | _ => none

/-- Why a list of bytes is no instruction. -/
inductive DecodeError where
  /-- The first byte is one of the 206 undefined opcodes (30_encoding.md R78). -/
  | illegalOpcode (op : Byte)
  /-- The list ends before the instruction does; a fetch from memory never meets it [log 36]. -/
  | truncated
  deriving DecidableEq, Repr

/-- Reads one instruction from bytes in memory order and answers it with the bytes that follow it (30_encoding.md
R74, R76): byte 0 alone selects the instruction and its length. -/
def decode : List Byte → Except DecodeError (Instr × List Byte)
  | [] => .error .truncated
  | op :: rest =>
    match opcodeForm op with
    | none => .error (.illegalOpcode op)
    | some (.f1 i) => .ok (i, rest)
    | some (.f2i make) =>
      match rest with
      | imm :: rest => .ok (make imm, rest)
      | [] => .error .truncated
    | some (.f2z make) =>
      match rest with
      | zp :: rest => .ok (make zp, rest)
      | [] => .error .truncated
    | some (.f3 make) =>
      match rest with
      | b1 :: b2 :: rest => .ok (make (Machine.orderPair Config.operandLowFirst b1 b2), rest)
      | _ => .error .truncated

/-- The two operand bytes of a `[MEM]` operand in memory order (20_memory.md R46). -/
def addrBytes (addr : Addr) : List Byte :=
  Machine.splitPair Config.operandLowFirst addr

/-- The bytes of an instruction in memory order, from the same table (30_encoding.md R73, R75). -/
def encode : Instr → List Byte
  | .movArMem addr => 0x01 :: addrBytes addr
  | .movBrMem addr => 0x02 :: addrBytes addr
  | .movArImm imm => [0x03, imm]
  | .movBrImm imm => [0x04, imm]
  | .movMemAr addr => 0x05 :: addrBytes addr
  | .movMemBr addr => 0x06 :: addrBytes addr
  | .swp => [0x07]
  | .ldo addr => 0x08 :: addrBytes addr
  | .sto addr => 0x09 :: addrBytes addr
  | .ldzAr => [0x0C]
  | .ldzZp zp => [0x0A, zp]
  | .stzZp zp => [0x0B, zp]
  | .ioAr => [0x31]
  | .ioBr => [0x32]
  | .pushAr => [0x8B]
  | .pushImm imm => [0x87, imm]
  | .pop => [0x8A]
  | .peekBr => [0x8E]
  | .peekImm imm => [0x88, imm]
  | .pokeBr => [0x8C]
  | .pokeImm imm => [0x89, imm]
  | .call addr => 0x85 :: addrBytes addr
  | .ret => [0x86]
  | .addImm imm => [0x13, imm]
  | .addBr => [0x14]
  | .subImm imm => [0x43, imm]
  | .subBr => [0x44]
  | .clc => [0x15]
  | .shl => [0x28]
  | .shr => [0x29]
  | .incAr => [0x2C]
  | .incBr => [0x2D]
  | .decAr => [0x2A]
  | .decBr => [0x2B]
  | .andBr => [0x21]
  | .andImm imm => [0x25, imm]
  | .orBr => [0x22]
  | .orImm imm => [0x26, imm]
  | .xorBr => [0x23]
  | .xorImm imm => [0x27, imm]
  | .notA => [0x24]
  | .jmp addr => 0x81 :: addrBytes addr
  | .jz addr => 0x91 :: addrBytes addr
  | .jnz addr => 0xA1 :: addrBytes addr
  | .jm addr => 0xB1 :: addrBytes addr
  | .jp addr => 0xC1 :: addrBytes addr
  | .jc addr => 0xD1 :: addrBytes addr
  | .jnc addr => 0xE1 :: addrBytes addr
  | .jof addr => 0xD2 :: addrBytes addr
  | .jnof addr => 0xE2 :: addrBytes addr

/-- An instruction's length in bytes, by which PC advances (10_state.md R14). -/
def Instr.length (i : Instr) : Nat :=
  (encode i).length

/-- Byte `k` of a table word, whose bit 0 is the least significant bit of the first byte. -/
def tableByte (nbits w k : Nat) : Byte :=
  BitVec.ofNat 8 ((w % 2 ^ nbits) >>> (8 * k))

/-- The instruction the decoder reads from the word `w` of `nbits` bits, the bits above `nbits` zero: the three bytes
are laid out in memory order and given to `decode` [log 34]. -/
def decodeTableWord (nbits w : Nat) : Option Instr :=
  match decode [tableByte nbits w 0, tableByte nbits w 1, tableByte nbits w 2] with
  | .ok (i, _) => some i
  | .error _ => none

end Sys2Proof
end

