-- ==== Sys2Proof/Machine/Fetch.lean ====
section
/-! DEFINITION. Fetching the instruction at PC, byte by byte in ascending order (20_memory.md R48, R57), with the
checks and their order (70_reset_and_hazards.md R224 (1) to (4), 60_exceptions.md R195), and storing a table word where
the fetch reads. -/

namespace Sys2Proof.Machine

/-- The `n` addresses that follow `pc`, where the operand bytes stand (10_state.md R13). -/
def operandAddrs (pc : Addr) (n : Nat) : List Addr :=
  (List.range n).map (fun k => pc + BitVec.ofNat 16 (k + 1))

/-- The first address above `MEM_TOP`, if any. -/
def firstOutOfRange (addrs : List Addr) : Option Addr :=
  addrs.find? (fun addr => !inRange addr)

/-- The instruction at PC, or the fault its fetch raises: PC above `MEM_TOP`, then an undefined opcode, then the first
operand byte above `MEM_TOP` (60_exceptions.md R195). -/
def State.fetch (s : State) : Except Fault Instr :=
  if inRange s.pc then
    match opcodeForm (s.readByte s.pc) with
    | none => .error (.illegalOpcode s.pc (s.readByte s.pc))
    | some form =>
      match firstOutOfRange (operandAddrs s.pc (form.format.length - 1)) with
      | some addr => .error (.accessOutOfRange s.pc addr)
      | none =>
        match decode (s.readByte s.pc :: (operandAddrs s.pc (form.format.length - 1)).map s.readByte) with
        | .ok (i, _) => .ok i
        | .error _ => .error (.illegalOpcode s.pc (s.readByte s.pc))
  else .error (.accessOutOfRange s.pc s.pc)

/-- Stores a byte if its address is implemented. -/
def State.plantByte (s : State) (addr : Addr) (v : Byte) : State :=
  if inRange addr then s.writeByte addr v else s

/-- Stores the bytes of a table word from PC on, up to the longest instruction's three, the bits above `nbits` zero
[log 3, log 34]. -/
def State.plantWord (s : State) (nbits w : Nat) : State :=
  ((s.plantByte s.pc (tableByte nbits w 0)).plantByte (s.pc + 1) (tableByte nbits w 1)).plantByte (s.pc + 2)
    (tableByte nbits w 2)

end Sys2Proof.Machine
end

