-- ==== Sys2Proof/Machine/Step.lean ====
section
/-! DEFINITION. One step of the machine (70_reset_and_hazards.md R224). -/

namespace Sys2Proof.Machine

/-- One step: fetch and decode at PC, then perform the instruction; a fault leaves the state as it was
(60_exceptions.md R191). A deterministic function of the state (70_reset_and_hazards.md R224): nothing
else writes memory [log 28] and no interrupt arrives [log 20]. -/
def step (s : State) : Host.Outcome State Fault Refusal :=
  match s.fetch with
  | .ok i => exec i s
  | .error f => .fault f

/-- The state with the word's bytes stored at PC, where the next step fetches [log 3]. -/
def State.withFetchWord (s : State) (nbits w : Nat) : State := s.plantWord nbits w

end Sys2Proof.Machine
end

