-- ==== Sys2Proof/Machine/Assembler.lean ====
section
/-! DEFINITION. The assembler as far as the spec gives it: operand kinds select the opcode (30_encoding.md R85 to R87,
R93) and the five keywords (R88 to R92). The source shows no grammar (91_not_in_source.md N3), so source text is taken
as a list of items and not as characters [log 33]. -/

namespace Sys2Proof.Machine

/-- The instruction a written one stands for; `none` where the spelling has no opcode (30_encoding.md R86). -/
def assemble (src : SourceInstr) : Option Instr :=
  match src.mnemonic with
  | .mov =>
    match src.operands with
    | [.ar, .mem addr] => some (.movArMem addr)
    | [.br, .mem addr] => some (.movBrMem addr)
    | [.ar, .immed imm] => some (.movArImm imm)
    | [.br, .immed imm] => some (.movBrImm imm)
    | [.mem addr, .ar] => some (.movMemAr addr)
    | [.mem addr, .br] => some (.movMemBr addr)
    | _ => none
  | .swp =>
    match src.operands with
    | [] => some .swp
    | _ => none
  | .ldo =>
    match src.operands with
    | [.mem addr] => some (.ldo addr)
    | _ => none
  | .sto =>
    match src.operands with
    | [.mem addr] => some (.sto addr)
    | _ => none
  | .ldz =>
    match src.operands with
    | [.ar] => some .ldzAr
    | [.zeroPage zp] => some (.ldzZp zp)
    | _ => none
  | .stz =>
    match src.operands with
    | [.zeroPage zp] => some (.stzZp zp)
    | _ => none
  | .io =>
    match src.operands with
    | [.ar] => some .ioAr
    | [.br] => some .ioBr
    | _ => none
  | .push =>
    match src.operands with
    | [.ar] => some .pushAr
    | [.immed imm] => some (.pushImm imm)
    | _ => none
  | .pop =>
    match src.operands with
    | [] => some .pop
    | _ => none
  | .peek =>
    match src.operands with
    | [.br] => some .peekBr
    | [.immed imm] => some (.peekImm imm)
    | _ => none
  | .poke =>
    match src.operands with
    | [.br] => some .pokeBr
    | [.immed imm] => some (.pokeImm imm)
    | _ => none
  | .call =>
    match src.operands with
    | [.mem addr] => some (.call addr)
    | _ => none
  | .ret =>
    match src.operands with
    | [] => some .ret
    | _ => none
  | .add =>
    match src.operands with
    | [.immed imm] => some (.addImm imm)
    | [.br] => some .addBr
    | _ => none
  | .sub =>
    match src.operands with
    | [.immed imm] => some (.subImm imm)
    | [.br] => some .subBr
    | _ => none
  | .clc =>
    match src.operands with
    | [] => some .clc
    | _ => none
  | .shl =>
    match src.operands with
    | [] => some .shl
    | _ => none
  | .shr =>
    match src.operands with
    | [] => some .shr
    | _ => none
  | .inc =>
    match src.operands with
    | [.ar] => some .incAr
    | [.br] => some .incBr
    | _ => none
  | .dec =>
    match src.operands with
    | [.ar] => some .decAr
    | [.br] => some .decBr
    | _ => none
  | .and =>
    match src.operands with
    | [.br] => some .andBr
    | [.immed imm] => some (.andImm imm)
    | _ => none
  | .or =>
    match src.operands with
    | [.br] => some .orBr
    | [.immed imm] => some (.orImm imm)
    | _ => none
  | .xor =>
    match src.operands with
    | [.br] => some .xorBr
    | [.immed imm] => some (.xorImm imm)
    | _ => none
  | .notA =>
    match src.operands with
    | [] => some .notA
    | _ => none
  | .jmp =>
    match src.operands with
    | [.mem addr] => some (.jmp addr)
    | _ => none
  | .jz =>
    match src.operands with
    | [.mem addr] => some (.jz addr)
    | _ => none
  | .jnz =>
    match src.operands with
    | [.mem addr] => some (.jnz addr)
    | _ => none
  | .jm =>
    match src.operands with
    | [.mem addr] => some (.jm addr)
    | _ => none
  | .jp =>
    match src.operands with
    | [.mem addr] => some (.jp addr)
    | _ => none
  | .jc =>
    match src.operands with
    | [.mem addr] => some (.jc addr)
    | _ => none
  | .jnc =>
    match src.operands with
    | [.mem addr] => some (.jnc addr)
    | _ => none
  | .jof =>
    match src.operands with
    | [.mem addr] => some (.jof addr)
    | _ => none
  | .jnof =>
    match src.operands with
    | [.mem addr] => some (.jnof addr)
    | _ => none

/-- The value of a `DEF` (30_encoding.md R88): 8-bit by default, `*` a memory address, `$` a zero-page address. -/
inductive MacroValue where
  | byte (v : Byte)
  | address (addr : Addr)
  | zeroPage (zp : Byte)
  deriving DecidableEq, Repr

/-- The operand a macro's value stands for (30_encoding.md R87). -/
def MacroValue.operand : MacroValue → Operand
  | .byte v => .immed v
  | .address addr => .mem addr
  | .zeroPage zp => .zeroPage zp

/-- An operand in source text: a value, or a label that stands for a `[MEM]` address (30_encoding.md R91, R92). DESIGN
CHOICE: of any instruction, where those rules name the jumps and `CALL` [log 40]. -/
inductive SourceOperand where
  | plain (o : Operand)
  | label (name : String)
  deriving DecidableEq, Repr

/-- One item of a source text. -/
inductive Item where
  /-- An instruction. -/
  | instr (mnemonic : Mnemonic) (operands : List SourceOperand)
  /-- `LOC [label]`: the address of the next instruction (30_encoding.md R91). -/
  | loc (name : String)
  /-- `FUNC [label]`: the address of the next instruction (30_encoding.md R92). DESIGN CHOICE: no other difference from
  `LOC` [log 40]. -/
  | func (name : String)
  /-- `DEF [value]`: emits no bytes (30_encoding.md R88). The macro's name is not in the source: the items that use
  it already hold its operand. -/
  | defValue (value : MacroValue)
  /-- `STR "[string]"`: the character codes and a 00 in the OS Constants region (30_encoding.md R89). Neither the place
  nor the code table is in the source: both are arguments [log 33]. -/
  | str (place : Nat) (codes : List Byte)
  /-- `SET [value]`: its meaning is not in the source (30_encoding.md R90). -/
  | set (value : Byte)
  deriving DecidableEq, Repr

/-- Why a source text is not assembled. -/
inductive AsmError where
  /-- The spelling has no opcode (30_encoding.md R86). -/
  | noSuchForm (src : SourceInstr)
  /-- An operand names a label that no `LOC` or `FUNC` marks. -/
  | unknownLabel (name : String)
  /-- Two `LOC` or `FUNC` mark one label; the source does not say which holds [log 33]. -/
  | labelTwice (name : String)
  /-- `SET`: a transcriber must refuse it rather than guess (30_encoding.md R90). -/
  | setNotDefined
  /-- A string does not fit the OS Constants region 0x0A00 to 0x0DBF (30_encoding.md R89). -/
  | strOutsideConstants (place : Nat)
  /-- The code runs past `MEM_TOP`. -/
  | codeOutsideMemory (place : Nat)
  deriving DecidableEq, Repr

/-- The address a label marks. -/
def labelAddr : List (String × Addr) → String → Option Addr
  | [], _ => none
  | (n, a) :: rest, name => if n = name then some a else labelAddr rest name

/-- An operand with its label replaced by the address. DESIGN CHOICE: a label of either keyword may stand for the `[MEM]`
operand of any instruction, and be used before it is marked [log 40]. -/
def SourceOperand.resolve (labels : List (String × Addr)) : SourceOperand → Except AsmError Operand
  | .plain o => .ok o
  | .label name =>
    match labelAddr labels name with
    | some a => .ok (.mem a)
    | none => .error (.unknownLabel name)

/-- An operand before its label is known: every address has the same kind, so the form and its length are known. -/
def SourceOperand.provisional : SourceOperand → Operand
  | .plain o => o
  | .label _ => .mem 0

/-- The operands with their labels replaced. -/
def resolveAll (labels : List (String × Addr)) : List SourceOperand → Except AsmError (List Operand)
  | [] => .ok []
  | o :: rest =>
    match o.resolve labels with
    | .error e => .error e
    | .ok x =>
      match resolveAll labels rest with
      | .error e => .error e
      | .ok xs => .ok (x :: xs)

/-- First pass: the labels and their addresses, for code from `place` on. DESIGN CHOICE: `LOC` and `FUNC` labels share one
table for the whole text, without scopes and without alignment (30_encoding.md R92 leaves it unstated) [log 40]. -/
def collectLabels : Nat → List (String × Addr) → List Item → Except AsmError (List (String × Addr))
  | _, labels, [] => .ok labels
  | place, labels, .instr m os :: rest =>
    match assemble ⟨m, os.map SourceOperand.provisional⟩ with
    | none => .error (.noSuchForm ⟨m, os.map SourceOperand.provisional⟩)
    | some i => collectLabels (place + i.length) labels rest
  | place, labels, .loc name :: rest =>
    match labelAddr labels name with
    | some _ => .error (.labelTwice name)
    | none => collectLabels place ((name, BitVec.ofNat 16 place) :: labels) rest
  | place, labels, .func name :: rest =>
    match labelAddr labels name with
    | some _ => .error (.labelTwice name)
    | none => collectLabels place ((name, BitVec.ofNat 16 place) :: labels) rest
  | place, labels, .defValue _ :: rest => collectLabels place labels rest
  | place, labels, .str _ _ :: rest => collectLabels place labels rest
  | place, labels, .set _ :: rest => collectLabels place labels rest

/-- The bytes of one item, as (address, byte) pairs, and the place of the next instruction. -/
def Item.cells (labels : List (String × Addr)) (place : Nat) : Item → Except AsmError (List Host.Cell × Nat)
  | .instr m os =>
    match resolveAll labels os with
    | .error e => .error e
    | .ok ops =>
      match assemble ⟨m, ops⟩ with
      | none => .error (.noSuchForm ⟨m, ops⟩)
      | some i =>
        if place + i.length ≤ Config.memTop + 1 then .ok (cellsFrom place (encode i), place + i.length)
        else .error (.codeOutsideMemory place)
  | .loc _ => .ok ([], place)
  | .func _ => .ok ([], place)
  | .defValue _ => .ok ([], place)
  | .str at_ codes =>
    if 0x0A00 ≤ at_ ∧ at_ + codes.length ≤ 0x0DBF then .ok (cellsFrom at_ (codes ++ [0x00]), place)
    else .error (.strOutsideConstants at_)
  | .set _ => .error .setNotDefined

/-- Second pass: the bytes of all items. -/
def emitItems (labels : List (String × Addr)) : Nat → List Item → Except AsmError (List Host.Cell)
  | _, [] => .ok []
  | place, item :: rest =>
    match item.cells labels place with
    | .error e => .error e
    | .ok (cells, next) =>
      match emitItems labels next rest with
      | .error e => .error e
      | .ok more => .ok (cells ++ more)

/-- The bytes a source text contributes to `IMAGE` (70_reset_and_hazards.md R221), its code from `origin` on; the
origin is an argument, since the source does not say where code is placed (91_not_in_source.md N51). DESIGN CHOICE: where
two items contribute a byte to one address, the later item's byte stands [log 42]. -/
def assembleImage (origin : Nat) (items : List Item) : Except AsmError Memory :=
  match collectLabels origin [] items with
  | .error e => .error e
  | .ok labels =>
    match emitItems labels origin items with
    | .error e => .error e
    | .ok cells => .ok (Memory.ofCells cells.reverse)

end Sys2Proof.Machine
end

