-- ==== Sys2Proof/Machine/Display.lean ====
section
/-! DEFINITION. What the display shows in mode 0: a pure function of memory, which the processor cannot observe
(60_exceptions.md R202 to R204). Mode 1 and colour are out of scope (00_scope.md section 4). -/

namespace Sys2Proof.Machine

/-- How many cells mode 0 shows: 0x2000 to 0x23FF (60_exceptions.md R202). -/
def screenCells : Nat := 1024

/-- The character code shown in cell `i`, 0 to 1023 (60_exceptions.md R202). -/
def screenCode (m : Memory) (i : Nat) : Byte := m.read (0x2000 + i)

/-- The character codes shown, "in sequence" (60_exceptions.md R202). -/
def screenCodes (m : Memory) : List Byte := (List.range screenCells).map (screenCode m)

/-- The address of row `y` (0 = top) of the glyph of code `c` in a character set, `false` for set 0 (60_exceptions.md
R203, decision D28) [log 27]. -/
def glyphAddr (secondSet : Bool) (c : Byte) (y : Nat) : Nat :=
  0x1000 + 0x800 * secondSet.toNat + 8 * c.toNat + y

/-- Whether the pixel in row `y` and column `x` (0 = leftmost, bit 7) of a glyph is filled (60_exceptions.md R203). -/
def glyphPixel (m : Memory) (secondSet : Bool) (c : Byte) (y x : Nat) : Bool :=
  (m.read (glyphAddr secondSet c y)).getLsbD (7 - x)

/-- Whether the pixel in row `y` and column `x` of cell `i` is filled, in the character set the display uses
(60_exceptions.md R202, R203). -/
def picturePixel (m : Memory) (i y x : Nat) : Bool :=
  glyphPixel m Config.charsetSelect (screenCode m i) y x

/-- The line and column at which cell `i` is shown; the number of columns is open (60_exceptions.md R204) [log 27].
DESIGN CHOICE: the cells fill the lines from left to right and from top to bottom, and each of the 1024 has a place; the
spec says "in sequence" only (60_exceptions.md R202) [log 41]. -/
def cellPosition (i : Nat) : Nat × Nat := (i / Config.screenCols, i % Config.screenCols)

end Sys2Proof.Machine
end

