-- ==== Sys2Proof/Machine/MemoryMap.lean ====
section
/-! DEFINITION. The memory map (20_memory.md R40). Its column is headed "Default Use": no instruction checks which
region an address is in (20_memory.md R41), so no meaning uses this file. -/

namespace Sys2Proof.Machine

/-- The eight regions of the map, by their default use (20_memory.md R40). -/
inductive Region where
  | zeroPagePointers | osCode | osConstants | cleanedInput | keyRing | stack | characterRom | screenMemory
  deriving DecidableEq, Repr

/-- The regions in ascending order. -/
def Region.all : List Region :=
  [.zeroPagePointers, .osCode, .osConstants, .cleanedInput, .keyRing, .stack, .characterRom, .screenMemory]

/-- The first address of a region (20_memory.md R40). -/
def Region.first : Region → Nat
  | .zeroPagePointers => 0x0000
  | .osCode => 0x0100
  | .osConstants => 0x0A00
  | .cleanedInput => 0x0DC0
  | .keyRing => 0x0DE0
  | .stack => 0x0E00
  | .characterRom => 0x1000
  | .screenMemory => 0x2000

/-- The last address of a region (20_memory.md R40). -/
def Region.last : Region → Nat
  | .zeroPagePointers => 0x00FF
  | .osCode => 0x09FF
  | .osConstants => 0x0DBF
  | .cleanedInput => 0x0DDF
  | .keyRing => 0x0DFF
  | .stack => 0x0FFF
  | .characterRom => 0x1FFF
  | .screenMemory => 0x3FFF

/-- A region's size in bytes (20_memory.md R40: end - start + 1). -/
def Region.size (r : Region) : Nat := r.last - r.first + 1

/-- Whether an address is in a region. -/
def Region.holds (r : Region) (a : Nat) : Bool := decide (r.first ≤ a) && decide (a ≤ r.last)

/-- The region of an address, none above `MEM_TOP`. -/
def regionOf (a : Nat) : Option Region := Region.all.find? (fun r => r.holds a)

end Sys2Proof.Machine
end

