-- ==== Sys2Proof/Machine/Symbols.lean ====
section
/-! DEFINITION. The symbolic names of the opcode byte's two nibbles (30_encoding.md R70 to R72). They are labels: no
decoding depends on them (R72). -/

namespace Sys2Proof.Machine

/-- The class names, high nibble (30_encoding.md R71). Nibbles 0x5, 0x6, 0x7 and 0xF have no name. -/
inductive OpcodeClass where
  | mov | add | log | io | sub | jmp | jz | jnz | jm | jp | jc | jnc
  deriving DecidableEq, Repr

/-- The modifier names, low nibble (30_encoding.md R72). Nibbles 0x0 and 0xF have no name. -/
inductive Modifier where
  | mema | memb | immeda | immedb | stora | storb | swp | shl | shr | deca | decb | inca | incb | aux
  deriving DecidableEq, Repr

/-- The high nibble a class name stands for (30_encoding.md R71). -/
def OpcodeClass.nibble : OpcodeClass → BitVec 4
  | .mov => 0x0
  | .add => 0x1
  | .log => 0x2
  | .io => 0x3
  | .sub => 0x4
  | .jmp => 0x8
  | .jz => 0x9
  | .jnz => 0xA
  | .jm => 0xB
  | .jp => 0xC
  | .jc => 0xD
  | .jnc => 0xE

/-- The low nibble a modifier name stands for (30_encoding.md R72). -/
def Modifier.nibble : Modifier → BitVec 4
  | .mema => 0x1
  | .memb => 0x2
  | .immeda => 0x3
  | .immedb => 0x4
  | .stora => 0x5
  | .storb => 0x6
  | .swp => 0x7
  | .shl => 0x8
  | .shr => 0x9
  | .deca => 0xA
  | .decb => 0xB
  | .inca => 0xC
  | .incb => 0xD
  | .aux => 0xE

/-- `op = class * 16 + modifier`: the class in the high nibble (30_encoding.md R70). -/
def opcodeOf (c : OpcodeClass) (m : Modifier) : Byte := c.nibble ++ m.nibble

/-- The class and modifier of each instruction, in the order class, modifier (30_encoding.md R75; 0x07 by
90_conflicts.md C2, 0x88 by 90_conflicts.md C1) [log 35]. -/
def symbolsOf : Instr → OpcodeClass × Modifier
  | .movArMem _ => (.mov, .mema)
  | .movBrMem _ => (.mov, .memb)
  | .movArImm _ => (.mov, .immeda)
  | .movBrImm _ => (.mov, .immedb)
  | .movMemAr _ => (.mov, .stora)
  | .movMemBr _ => (.mov, .storb)
  | .swp => (.mov, .swp)
  | .ldo _ => (.mov, .shl)
  | .sto _ => (.mov, .shr)
  | .ldzAr => (.mov, .inca)
  | .ldzZp _ => (.mov, .deca)
  | .stzZp _ => (.mov, .decb)
  | .ioAr => (.io, .mema)
  | .ioBr => (.io, .memb)
  | .pushAr => (.jmp, .decb)
  | .pushImm _ => (.jmp, .swp)
  | .pop => (.jmp, .deca)
  | .peekBr => (.jmp, .aux)
  | .peekImm _ => (.jmp, .shl)
  | .pokeBr => (.jmp, .inca)
  | .pokeImm _ => (.jmp, .shr)
  | .call _ => (.jmp, .stora)
  | .ret => (.jmp, .storb)
  | .addImm _ => (.add, .immeda)
  | .addBr => (.add, .immedb)
  | .subImm _ => (.sub, .immeda)
  | .subBr => (.sub, .immedb)
  | .clc => (.add, .stora)
  | .shl => (.log, .shl)
  | .shr => (.log, .shr)
  | .incAr => (.log, .inca)
  | .incBr => (.log, .incb)
  | .decAr => (.log, .deca)
  | .decBr => (.log, .decb)
  | .andBr => (.log, .mema)
  | .andImm _ => (.log, .stora)
  | .orBr => (.log, .memb)
  | .orImm _ => (.log, .storb)
  | .xorBr => (.log, .immeda)
  | .xorImm _ => (.log, .swp)
  | .notA => (.log, .immedb)
  | .jmp _ => (.jmp, .mema)
  | .jz _ => (.jz, .mema)
  | .jnz _ => (.jnz, .mema)
  | .jm _ => (.jm, .mema)
  | .jp _ => (.jp, .mema)
  | .jc _ => (.jc, .mema)
  | .jnc _ => (.jnc, .mema)
  | .jof _ => (.jc, .memb)
  | .jnof _ => (.jnc, .memb)

end Sys2Proof.Machine
end

