-- ==== Sys2Proof/Machine/Footprint.lean ====
section
/-! DEFINITION. The memory footprint of an instruction: the addresses it fetches, reads and writes (20_memory.md R50,
60_exceptions.md R193). -/

namespace Sys2Proof.Machine

/-- The addresses the fetch at PC reads: the opcode byte and, when it is defined, the operand bytes. -/
def State.fetchAddrs (s : State) : List Addr :=
  match opcodeForm (s.readByte s.pc) with
  | none => [s.pc]
  | some form => s.pc :: operandAddrs s.pc (form.format.length - 1)

/-- The data bytes an instruction reads, in the order it needs them (20_memory.md R50). -/
def dataReads (i : Instr) (s : State) : List Addr :=
  match i with
  | .movArMem addr => [addr]
  | .movBrMem addr => [addr]
  | .movArImm _ => []
  | .movBrImm _ => []
  | .movMemAr _ => []
  | .movMemBr _ => []
  | .swp => []
  | .ldo addr => [s.indexed addr]
  | .sto _ => []
  | .ldzAr => s.zpAddrs s.a
  | .ldzZp zp => s.zpAddrs zp
  | .stzZp zp => [zext16 zp, zpSecond Config.zpWrap zp]
  | .ioAr => []
  | .ioBr => []
  | .pushAr => []
  | .pushImm _ => []
  | .pop => [s.sp - 1]
  | .peekBr => [s.frameAddr s.b]
  | .peekImm imm => [s.frameAddr imm]
  | .pokeBr => []
  | .pokeImm _ => []
  | .call _ => []
  | .ret => fourFrom s.retBase
  | .addImm _ => []
  | .addBr => []
  | .subImm _ => []
  | .subBr => []
  | .clc => []
  | .shl => []
  | .shr => []
  | .incAr => []
  | .incBr => []
  | .decAr => []
  | .decBr => []
  | .andBr => []
  | .andImm _ => []
  | .orBr => []
  | .orImm _ => []
  | .xorBr => []
  | .xorImm _ => []
  | .notA => []
  | .jmp _ => []
  | .jz _ => []
  | .jnz _ => []
  | .jm _ => []
  | .jp _ => []
  | .jc _ => []
  | .jnc _ => []
  | .jof _ => []
  | .jnof _ => []

/-- The data bytes an instruction writes (20_memory.md R50). -/
def dataWrites (i : Instr) (s : State) : List Addr :=
  match i with
  | .movArMem _ => []
  | .movBrMem _ => []
  | .movArImm _ => []
  | .movBrImm _ => []
  | .movMemAr addr => [addr]
  | .movMemBr addr => [addr]
  | .swp => []
  | .ldo _ => []
  | .sto addr => [s.indexed addr]
  | .ldzAr => []
  | .ldzZp _ => []
  | .stzZp zp => [s.zpIndexed zp]
  | .ioAr => []
  | .ioBr => []
  | .pushAr => [s.sp]
  | .pushImm _ => [s.sp]
  | .pop => []
  | .peekBr => []
  | .peekImm _ => []
  | .pokeBr => [s.frameAddr s.b]
  | .pokeImm imm => [s.frameAddr imm]
  | .call _ => fourFrom s.sp
  | .ret => []
  | .addImm _ => []
  | .addBr => []
  | .subImm _ => []
  | .subBr => []
  | .clc => []
  | .shl => []
  | .shr => []
  | .incAr => []
  | .incBr => []
  | .decAr => []
  | .decBr => []
  | .andBr => []
  | .andImm _ => []
  | .orBr => []
  | .orImm _ => []
  | .xorBr => []
  | .xorImm _ => []
  | .notA => []
  | .jmp _ => []
  | .jz _ => []
  | .jnz _ => []
  | .jm _ => []
  | .jp _ => []
  | .jc _ => []
  | .jnc _ => []
  | .jof _ => []
  | .jnof _ => []

/-- What an instruction may write, PC apart: the columns "Writes" and "Flags" of 10_state.md section 6 (part of R12),
and whether it may transfer control (10_state.md R14). -/
structure Writes where
  a : Bool := false
  b : Bool := false
  sp : Bool := false
  bp : Bool := false
  /-- Flags Z and M. -/
  zm : Bool := false
  /-- Flags C and V. -/
  cv : Bool := false
  mem : Bool := false
  console : Bool := false
  /-- PC may go elsewhere than to the next instruction. -/
  transfers : Bool := false
  deriving DecidableEq, Repr

/-- The write table of 10_state.md section 6. -/
def writesOf : Instr → Writes
  | .movArMem _ => { a := true }
  | .movBrMem _ => { b := true }
  | .movArImm _ => { a := true }
  | .movBrImm _ => { b := true }
  | .movMemAr _ => { mem := true }
  | .movMemBr _ => { mem := true }
  | .swp => { a := true, b := true }
  | .ldo _ => { a := true }
  | .sto _ => { mem := true }
  | .ldzAr => { a := true }
  | .ldzZp _ => { a := true }
  | .stzZp _ => { mem := true }
  | .ioAr => { console := true }
  | .ioBr => { console := true }
  | .pushAr => { sp := true, mem := true }
  | .pushImm _ => { sp := true, mem := true }
  | .pop => { a := true, sp := true }
  | .peekBr => { a := true }
  | .peekImm _ => { a := true }
  | .pokeBr => { mem := true }
  | .pokeImm _ => { mem := true }
  | .call _ => { sp := true, bp := true, mem := true, transfers := true }
  | .ret => { sp := true, bp := true, transfers := true }
  | .addImm _ => { a := true, zm := true, cv := true }
  | .addBr => { a := true, zm := true, cv := true }
  | .subImm _ => { a := true, zm := true, cv := true }
  | .subBr => { a := true, zm := true, cv := true }
  | .clc => { cv := true }
  | .shl => { a := true, zm := true, cv := true }
  | .shr => { a := true, zm := true, cv := true }
  | .incAr => { a := true, zm := true, cv := true }
  | .incBr => { b := true, zm := true, cv := true }
  | .decAr => { a := true, zm := true, cv := true }
  | .decBr => { b := true, zm := true, cv := true }
  | .andBr => { a := true, zm := true, cv := true }
  | .andImm _ => { a := true, zm := true, cv := true }
  | .orBr => { a := true, zm := true, cv := true }
  | .orImm _ => { a := true, zm := true, cv := true }
  | .xorBr => { a := true, zm := true, cv := true }
  | .xorImm _ => { a := true, zm := true, cv := true }
  | .notA => { a := true, zm := true, cv := true }
  | .jmp _ => { transfers := true }
  | .jz _ => { transfers := true }
  | .jnz _ => { transfers := true }
  | .jm _ => { transfers := true }
  | .jp _ => { transfers := true }
  | .jc _ => { transfers := true }
  | .jnc _ => { transfers := true }
  | .jof _ => { transfers := true }
  | .jnof _ => { transfers := true }

/-- What an instruction reads, PC and memory apart: the column "Reads" of 10_state.md section 6 (part of R12). -/
structure Reads where
  a : Bool := false
  b : Bool := false
  sp : Bool := false
  bp : Bool := false
  z : Bool := false
  m : Bool := false
  c : Bool := false
  v : Bool := false
  deriving DecidableEq, Repr

/-- The read table of 10_state.md section 6. -/
def readsOf : Instr → Reads
  | .movArMem _ => { }
  | .movBrMem _ => { }
  | .movArImm _ => { }
  | .movBrImm _ => { }
  | .movMemAr _ => { a := true }
  | .movMemBr _ => { b := true }
  | .swp => { a := true, b := true }
  | .ldo _ => { b := true }
  | .sto _ => { a := true, b := true }
  | .ldzAr => { a := true, b := true }
  | .ldzZp _ => { b := true }
  | .stzZp _ => { a := true, b := true }
  | .ioAr => { a := true }
  | .ioBr => { b := true }
  | .pushAr => { a := true, sp := true }
  | .pushImm _ => { sp := true }
  | .pop => { sp := true }
  | .peekBr => { b := true, bp := true }
  | .peekImm _ => { bp := true }
  | .pokeBr => { a := true, b := true, bp := true }
  | .pokeImm _ => { a := true, bp := true }
  | .call _ => { sp := true, bp := true }
  | .ret => { bp := true }
  | .addImm _ => { a := true }
  | .addBr => { a := true, b := true }
  | .subImm _ => { a := true }
  | .subBr => { a := true, b := true }
  | .clc => { }
  | .shl => { a := true }
  | .shr => { a := true }
  | .incAr => { a := true }
  | .incBr => { b := true }
  | .decAr => { a := true }
  | .decBr => { b := true }
  | .andBr => { a := true, b := true }
  | .andImm _ => { a := true }
  | .orBr => { a := true, b := true }
  | .orImm _ => { a := true }
  | .xorBr => { a := true, b := true }
  | .xorImm _ => { a := true }
  | .notA => { a := true }
  | .jmp _ => { }
  | .jz _ => { z := true }
  | .jnz _ => { z := true }
  | .jm _ => { m := true }
  | .jp _ => { z := true, m := true }
  | .jc _ => { c := true }
  | .jnc _ => { c := true }
  | .jof _ => { v := true }
  | .jnof _ => { v := true }

end Sys2Proof.Machine
end

