-- ==== Sys2Proof/Machine/Run.lean ====
section
/-! DEFINITION. A run: its start, its end at `END_PC` and its faulted state (70_reset_and_hazards.md R220, R223,
60_exceptions.md R191). -/

namespace Sys2Proof.Machine

/-- Where a run stands. -/
inductive RunState where
  /-- Neither ended nor faulted: no fault is recorded (70_reset_and_hazards.md R220). -/
  | running (s : State)
  /-- PC was `END_PC` before a step; the instruction there is not executed (70_reset_and_hazards.md R223). -/
  | ended (s : State)
  /-- The faulted state: the state before the faulting instruction, PC at its opcode byte, and the recorded fault
  (60_exceptions.md R191) [log 32]. -/
  | faulted (s : State) (f : Fault)
  /-- A step was refused; no step of this machine is. -/
  | refused (s : State) (r : Refusal)
  deriving DecidableEq, Repr

/-- The start of a run with these free inputs (70_reset_and_hazards.md R220, R221). -/
def RunState.start (r : ResetValues) (image : Memory) : RunState := .running (State.boot r image)

/-- The processor's state at this point of the run. -/
def RunState.state : RunState → State
  | .running s => s
  | .ended s => s
  | .faulted s _ => s
  | .refused s _ => s

/-- One step of a run (70_reset_and_hazards.md R223, R224): a state that is ended or faulted takes no further step. -/
def RunState.advance (endPc : Addr) : RunState → RunState
  | .running s =>
    if s.pc = endPc then .ended s
    else
      match step s with
      | .next t => .running t
      | .fault f => .faulted s f
      | .refused r => .refused s r
  | .ended s => .ended s
  | .faulted s f => .faulted s f
  | .refused s r => .refused s r

/-- A run after `n` steps. -/
def RunState.after (endPc : Addr) : Nat → RunState → RunState
  | 0, r => r
  | n + 1, r => RunState.after endPc n (r.advance endPc)

end Sys2Proof.Machine
end

