-- ==== Sys2Proof/Machine/Timing.lean ====
section
/-! DEFINITION. Durations (70_reset_and_hazards.md R231, R232). No instruction observes them, so they are functions
beside the state and not part of it. -/

namespace Sys2Proof.Machine

/-- The "Clock cycles" figure of an instruction (70_reset_and_hazards.md R231). A conditional jump has one figure,
taken or not (decision D30) [log 29]. -/
def cycles : Instr → Nat
  | .movArMem _ => 12
  | .movBrMem _ => 12
  | .movArImm _ => 8
  | .movBrImm _ => 8
  | .movMemAr _ => 12
  | .movMemBr _ => 12
  | .swp => 7
  | .ldo _ => 18
  | .sto _ => 19
  | .ldzAr => 16
  | .ldzZp _ => 18
  | .stzZp _ => 19
  | .ioAr => 4
  | .ioBr => 4
  | .pushAr => 13
  | .pushImm _ => 17
  | .pop => 12
  | .peekBr => 16
  | .peekImm _ => 18
  | .pokeBr => 14
  | .pokeImm _ => 19
  | .call _ => 34
  | .ret => 28
  | .addImm _ => 11
  | .addBr => 5
  | .subImm _ => 11
  | .subBr => 5
  | .clc => 5
  | .shl => 5
  | .shr => 5
  | .incAr => 5
  | .incBr => 5
  | .decAr => 5
  | .decBr => 5
  | .andBr => 5
  | .andImm _ => 11
  | .orBr => 5
  | .orImm _ => 11
  | .xorBr => 5
  | .xorImm _ => 11
  | .notA => 5
  | .jmp _ => 11
  | .jz _ => 11
  | .jnz _ => 11
  | .jm _ => 11
  | .jp _ => 11
  | .jc _ => 11
  | .jnc _ => 11
  | .jof _ => 11
  | .jnof _ => 11

/-- The figure of the instruction that the next step of a run executes; 0 where the run executes none. -/
def RunState.stepCycles (endPc : Addr) : RunState → Nat
  | .running s =>
    if s.pc = endPc then 0
    else
      match s.fetch with
      | .ok i =>
        match exec i s with
        | .next _ => cycles i
        | .fault _ => 0
        | .refused _ => 0
      | .error _ => 0
  | .ended _ => 0
  | .faulted _ _ => 0
  | .refused _ _ => 0

/-- The duration of the first `n` steps of a run: the sum of the figures of the instructions it executes
(70_reset_and_hazards.md R232). -/
def RunState.duration (endPc : Addr) : Nat → RunState → Nat
  | 0, _ => 0
  | n + 1, r => r.stepCycles endPc + RunState.duration endPc n (r.advance endPc)

end Sys2Proof.Machine
end

