-- ==== Sys2Proof/Safety.lean ====
section
/-! DEFINITION. What counts as a safe run: one without a fault, and, for a cautious claim, one on which the readings
that the source does not settle agree (93_implementation_defined.md section 1, "Cautious treatment") [log 38]. -/

namespace Sys2Proof.Machine

/-- No fault (and no refusal) within `n` steps of a run (60_exceptions.md R191). -/
def faultFree (endPc : Addr) : Nat → RunState → Bool
  | _, .faulted _ _ => false
  | _, .refused _ _ => false
  | _, .ended _ => true
  | 0, .running _ => true
  | n + 1, .running s => faultFree endPc n ((RunState.running s).advance endPc)

/-- A run that is over within `n` steps, without a fault (70_reset_and_hazards.md R223). -/
def endsWithin (endPc : Addr) (n : Nat) (r : RunState) : Bool :=
  match r.after endPc n with
  | .ended _ => true
  | .running _ => false
  | .faulted _ _ => false
  | .refused _ _ => false

/-- SP is in the stack region or just above it (92_eei_decisions.md D34). -/
def stackInRegion (s : State) : Bool := decide (0x0E00 ≤ s.sp.toNat) && decide (s.sp.toNat ≤ 0x1000)

/-- The readings of an address with offset in B agree: B at most 0x7F (U5), no carry out of bit 15 (U9). -/
def indexAgrees (s : State) (base : Addr) : Bool := !s.b.msb && decide (base.toNat + s.b.toNat < 65536)

/-- The readings of an access through a zero-page pointer agree: also not the pointer at 0xFF (U6). -/
def zpAgrees (s : State) (zp : Byte) : Bool := (zp != 0xFF) && indexAgrees s (s.zpPointer zp)

/-- BP plus the signed offset does not leave the 16-bit range (U9). -/
def frameAgrees (s : State) (offset : Byte) : Bool :=
  decide (0 ≤ (s.bp.toNat : Int) + offset.toInt) && decide ((s.bp.toNat : Int) + offset.toInt < 65536)

/-- `n` pushed bytes stay inside the stack region (U17). -/
def pushAgrees (s : State) (n : Nat) : Bool := decide (0x0E00 ≤ s.sp.toNat) && decide (s.sp.toNat + n ≤ 0x1000)

/-- No store into the five bytes after the opcode (U22). -/
def storesAgree (i : Instr) (s : State) : Bool :=
  (dataWrites i s).all (fun w => [1, 2, 3, 4, 5].all (fun k => decide (w ≠ s.pc + BitVec.ofNat 16 k)))

/-- The condition of the cautious treatment that is an instruction's own (93_implementation_defined.md U5, U6, U9 to
U11, U17, U20, U21). -/
def operandsAgree (i : Instr) (s : State) : Bool :=
  match i with
  | .movArMem _ => true
  | .movBrMem _ => true
  | .movArImm _ => true
  | .movBrImm _ => true
  | .movMemAr _ => true
  | .movMemBr _ => true
  | .swp => true
  | .ldo addr => indexAgrees s addr
  | .sto addr => indexAgrees s addr
  | .ldzAr => zpAgrees s s.a
  | .ldzZp zp => zpAgrees s zp
  | .stzZp zp => zpAgrees s zp
  | .ioAr => true
  | .ioBr => true
  | .pushAr => pushAgrees s 1
  | .pushImm _ => pushAgrees s 1
  | .pop => decide (0x0E01 ≤ s.sp.toNat) && decide (s.sp.toNat ≤ 0x1000)
  | .peekBr => frameAgrees s s.b
  | .peekImm imm => frameAgrees s imm
  | .pokeBr => frameAgrees s s.b
  | .pokeImm imm => frameAgrees s imm
  | .call _ => pushAgrees s 4
  | .ret => decide (s.sp = s.bp + 1) && decide (3 ≤ s.bp.toNat)
  | .addImm _ => !s.flagC
  | .addBr => !s.flagC
  | .subImm _ => !s.flagC
  | .subBr => !s.flagC
  | .clc => true
  | .shl => true
  | .shr => !s.a.msb
  | .incAr => !s.flagC
  | .incBr => !s.flagC
  | .decAr => !s.flagC
  | .decBr => !s.flagC
  | .andBr => true
  | .andImm _ => true
  | .orBr => true
  | .orImm _ => true
  | .xorBr => true
  | .xorImm _ => true
  | .notA => true
  | .jmp _ => true
  | .jz _ => true
  | .jnz _ => true
  | .jm _ => !s.flagV
  | .jp _ => !s.flagV && !s.flagZ
  | .jc _ => true
  | .jnc _ => true
  | .jof _ => true
  | .jnof _ => true

/-- The states in which the refusing cautious treatments of 93_implementation_defined.md let the instruction run. The
items whose cautious treatment is `any value` (U7, U8, U12, U16) say nothing of the state before and are not here. -/
def readingsAgree (i : Instr) (s : State) : Bool := operandsAgree i s && storesAgree i s

end Sys2Proof.Machine
end

