-- ==== Sys2Proof/Certificates/Slice0/Obligations.lean ====
section
/-! DEFINITION. The statements for the provers. A docstring names the rule a statement formalises; where the rule
rests on a decision of the spec (92_eei_decisions.md) or on a choice of this model, it names the decision and the log
entry as well. -/

open Sys2Proof Sys2Proof.Machine

/-- An implemented address (20_memory.md R43): at most 0x3FFF. -/
abbrev Sys2Proof.Implemented (addr : Addr) : Prop := addr.toNat ≤ 0x3FFF

/-- The result is the next state `after m`, where `m` holds `v` at the address `ea` and is unchanged at every other
address. -/
def Sys2Proof.StoresByte (r : Result) (s : State) (ea : Addr) (v : Byte) (after : Memory → State) : Prop :=
  ∃ m : Memory, r = .next (after m) ∧ m.read ea.toNat = v ∧ ∀ x, x ≠ ea.toNat → m.read x = s.mem.read x

/-- The instructions one after another, stopping at the first that does not answer a next state. -/
def Sys2Proof.execAll : List Instr → State → Result
  | [], s => .next s
  | i :: rest, s =>
    match exec i s with
    | .next t => execAll rest t
    | .fault f => .fault f
    | .refused r => .refused r

/-- Two results that are the same fault, or two next states related by `related`. -/
def Sys2Proof.SameOutcome (related : State → State → Prop) (x y : Result) : Prop :=
  match x, y with
  | .next t, .next t' => related t t'
  | .fault f, .fault f' => f = f'
  | .refused _, _ => False
  | .next _, .fault _ => False
  | .next _, .refused _ => False
  | .fault _, .next _ => False
  | .fault _, .refused _ => False

/-- The state with the four flags of the sum `x + y` (43_alu_ops.md R140, `add8`). -/
def Sys2Proof.withSumFlags (x y : Byte) (s : State) : State :=
  { s with
    flagZ := x + y == 0
    flagM := (x + y).msb
    flagC := decide (256 ≤ x.toNat + y.toNat)
    flagV := (x.msb == y.msb) && ((x + y).msb != x.msb) }

/-- The state with the four flags of the difference `x - y` (43_alu_ops.md R140, `sub8`): C is the borrow. -/
def Sys2Proof.withDiffFlags (x y : Byte) (s : State) : State :=
  { s with
    flagZ := x - y == 0
    flagM := (x - y).msb
    flagC := decide (x.toNat < y.toNat)
    flagV := (x.msb != y.msb) && ((x - y).msb != x.msb) }

/-- The state with the four flags of a result whose C is given and whose V is 0 (43_alu_ops.md R140). -/
def Sys2Proof.withResultFlags (r : Byte) (c : Bool) (s : State) : State :=
  { s with flagZ := r == 0, flagM := r.msb, flagC := c, flagV := false }

/-- The columns Op, Assembler form (with operands of zeros), Fmt and Cycles of the table of 30_encoding.md R75. -/
def Sys2Proof.opcodeRows : List (Byte × Instr × Format × Nat) :=
   [(0x01, .movArMem 0, .f3, 12), (0x02, .movBrMem 0, .f3, 12), (0x03, .movArImm 0, .f2i, 8),
    (0x04, .movBrImm 0, .f2i, 8), (0x05, .movMemAr 0, .f3, 12), (0x06, .movMemBr 0, .f3, 12),
    (0x07, .swp, .f1, 7), (0x08, .ldo 0, .f3, 18), (0x09, .sto 0, .f3, 19),
    (0x0C, .ldzAr, .f1, 16), (0x0A, .ldzZp 0, .f2z, 18), (0x0B, .stzZp 0, .f2z, 19),
    (0x31, .ioAr, .f1, 4), (0x32, .ioBr, .f1, 4), (0x8B, .pushAr, .f1, 13),
    (0x87, .pushImm 0, .f2i, 17), (0x8A, .pop, .f1, 12), (0x8E, .peekBr, .f1, 16),
    (0x88, .peekImm 0, .f2i, 18), (0x8C, .pokeBr, .f1, 14), (0x89, .pokeImm 0, .f2i, 19),
    (0x85, .call 0, .f3, 34), (0x86, .ret, .f1, 28), (0x13, .addImm 0, .f2i, 11),
    (0x14, .addBr, .f1, 5), (0x43, .subImm 0, .f2i, 11), (0x44, .subBr, .f1, 5),
    (0x15, .clc, .f1, 5), (0x28, .shl, .f1, 5), (0x29, .shr, .f1, 5),
    (0x2C, .incAr, .f1, 5), (0x2D, .incBr, .f1, 5), (0x2A, .decAr, .f1, 5),
    (0x2B, .decBr, .f1, 5), (0x21, .andBr, .f1, 5), (0x25, .andImm 0, .f2i, 11),
    (0x22, .orBr, .f1, 5), (0x26, .orImm 0, .f2i, 11), (0x23, .xorBr, .f1, 5),
    (0x27, .xorImm 0, .f2i, 11), (0x24, .notA, .f1, 5), (0x81, .jmp 0, .f3, 11),
    (0x91, .jz 0, .f3, 11), (0xA1, .jnz 0, .f3, 11), (0xB1, .jm 0, .f3, 11),
    (0xC1, .jp 0, .f3, 11), (0xD1, .jc 0, .f3, 11), (0xE1, .jnc 0, .f3, 11),
    (0xD2, .jof 0, .f3, 11), (0xE2, .jnof 0, .f3, 11)]

/-! ## Memory operations -/

/-- 41_memory_ops.md R103, R104: the encoding, the effect in every state (no flag, no memory, no other register
changes, and no fault beyond the fetch) and the duration of the two immediate loads. -/
def Obligations.MovImmediateLoadsRegister : Prop :=
  ∀ (imm : Byte) (rest : List Byte) (s : State),
    (decode (0x03 :: imm :: rest) = .ok (.movArImm imm, rest) ∧
      exec (.movArImm imm) s = .next { s with a := imm, pc := s.pc + 2 } ∧ cycles (.movArImm imm) = 8) ∧
    (decode (0x04 :: imm :: rest) = .ok (.movBrImm imm, rest) ∧
      exec (.movBrImm imm) s = .next { s with b := imm, pc := s.pc + 2 } ∧ cycles (.movBrImm imm) = 8)

/-- 41_memory_ops.md section 2: `MOV Ar [MEM]` and `MOV Br [MEM]` load the byte at an implemented address and change
nothing else; above 0x3FFF they raise the access fault (decision D3, log 18). -/
def Obligations.MovLoadsByteFromMemory : Prop :=
  ∀ (addr : Addr) (s : State),
    (Implemented addr →
      exec (.movArMem addr) s = .next { s with a := s.mem.read addr.toNat, pc := s.pc + 3 } ∧
      exec (.movBrMem addr) s = .next { s with b := s.mem.read addr.toNat, pc := s.pc + 3 }) ∧
    (¬ Implemented addr →
      exec (.movArMem addr) s = .fault (.accessOutOfRange s.pc addr) ∧
      exec (.movBrMem addr) s = .fault (.accessOutOfRange s.pc addr))

/-- 41_memory_ops.md section 2: `MOV [MEM] Ar` and `MOV [MEM] Br` store one byte at the operand's address and change
nothing else; above 0x3FFF they raise the access fault (decision D3, log 18). -/
def Obligations.MovStoresByteToMemory : Prop :=
  ∀ (addr : Addr) (s : State),
    (Implemented addr →
      StoresByte (exec (.movMemAr addr) s) s addr s.a (fun m => { s with mem := m, pc := s.pc + 3 }) ∧
      StoresByte (exec (.movMemBr addr) s) s addr s.b (fun m => { s with mem := m, pc := s.pc + 3 })) ∧
    (¬ Implemented addr →
      exec (.movMemAr addr) s = .fault (.accessOutOfRange s.pc addr) ∧
      exec (.movMemBr addr) s = .fault (.accessOutOfRange s.pc addr))

/-- 20_memory.md R42 (with 90_conflicts.md C3): a write to the region 0x1000 to 0x1FFF succeeds and a later read
returns the written byte. -/
def Obligations.CharacterRomIsWritable : Prop :=
  ∀ (addr : Addr) (s : State), 0x1000 ≤ addr.toNat → addr.toNat ≤ 0x1FFF →
    (∀ v : Byte, inRange addr = true ∧ (s.writeByte addr v).readByte addr = v) ∧
    ∃ t u, exec (.movMemAr addr) s = .next t ∧ exec (.movBrMem addr) t = .next u ∧ u.b = s.a ∧
      ∀ x, x ≠ addr.toNat → u.mem.read x = s.mem.read x

/-- 41_memory_ops.md section 3: `SWP` exchanges A and B, both read before either is written. -/
def Obligations.SwpExchangesRegisters : Prop :=
  ∀ s : State, exec .swp s = .next { s with a := s.b, b := s.a, pc := s.pc + 1 }

/-- The addresses the meanings compute, in terms of the registers and of memory: 41_memory_ops.md R100 (decision D7,
log 6), 20_memory.md R47 (decisions D5, D6, log 5), 42_stack_ops.md R120 (c) and R129 (decision D19, log 17). -/
def Obligations.EffectiveAddressesAsSpecified : Prop :=
  ∀ s : State,
    (∀ base : Addr, s.indexed base = base + BitVec.ofNat 16 s.b.toNat) ∧
    (∀ zp : Byte, (s.zpPointer zp).toNat = (s.mem.read zp.toNat).toNat + 256 * (s.mem.read (zp.toNat + 1)).toNat) ∧
    (∀ zp : Byte, s.zpIndexed zp = s.zpPointer zp + BitVec.ofNat 16 s.b.toNat) ∧
    (∀ offset : Byte, s.frameAddr offset = s.bp + BitVec.ofInt 16 offset.toInt) ∧
    s.retBase = s.bp + 0xFFFD

/-- 41_memory_ops.md section 4: `LDO` and `STO` reach the operand's address plus B; only the sum is checked
(decisions D3 and D7, log 18 and log 6). -/
def Obligations.LdoStoUseAddressPlusB : Prop :=
  ∀ (addr : Addr) (s : State),
    (Implemented (s.indexed addr) →
      exec (.ldo addr) s = .next { s with a := s.mem.read (s.indexed addr).toNat, pc := s.pc + 3 } ∧
      StoresByte (exec (.sto addr) s) s (s.indexed addr) s.a (fun m => { s with mem := m, pc := s.pc + 3 })) ∧
    (¬ Implemented (s.indexed addr) →
      exec (.ldo addr) s = .fault (.accessOutOfRange s.pc (s.indexed addr)) ∧
      exec (.sto addr) s = .fault (.accessOutOfRange s.pc (s.indexed addr)))

/-- 41_memory_ops.md section 5: `LDZ Ar`, `LDZ [$ZP]` and `STZ [$ZP]` reach the address in the zero-page pointer plus
B; the pointer's own bytes never fault (decisions D3, D5, D6 and D7, log 18, log 5 and log 6). -/
def Obligations.ZeroPagePointerAccesses : Prop :=
  ∀ (zp : Byte) (s : State),
    (Implemented (s.zpIndexed zp) →
      (s.a = zp → exec .ldzAr s = .next { s with a := s.mem.read (s.zpIndexed zp).toNat, pc := s.pc + 1 }) ∧
      exec (.ldzZp zp) s = .next { s with a := s.mem.read (s.zpIndexed zp).toNat, pc := s.pc + 2 } ∧
      StoresByte (exec (.stzZp zp) s) s (s.zpIndexed zp) s.a (fun m => { s with mem := m, pc := s.pc + 2 })) ∧
    (¬ Implemented (s.zpIndexed zp) →
      (s.a = zp → exec .ldzAr s = .fault (.accessOutOfRange s.pc (s.zpIndexed zp))) ∧
      exec (.ldzZp zp) s = .fault (.accessOutOfRange s.pc (s.zpIndexed zp)) ∧
      exec (.stzZp zp) s = .fault (.accessOutOfRange s.pc (s.zpIndexed zp)))

/-- 41_memory_ops.md section 6 and 60_exceptions.md section 4: `IO` appends the register's byte to the console and
changes nothing else (decision D27, log 26). -/
def Obligations.IoAppendsToConsole : Prop :=
  ∀ s : State,
    exec .ioAr s = .next { s with console := s.console ++ [s.a], pc := s.pc + 1 } ∧
    exec .ioBr s = .next { s with console := s.console ++ [s.b], pc := s.pc + 1 }

/-! ## Stack operations -/

/-- 42_stack_ops.md R122: the encoding, the effect, the fault for SP above `MEM_TOP`, whatever its value, and the
duration of `PUSH <immed>`. -/
def Obligations.PushImmediateStoresAtStackPointer : Prop :=
  ∀ (imm : Byte) (rest : List Byte) (s : State),
    decode (0x87 :: imm :: rest) = .ok (.pushImm imm, rest) ∧ cycles (.pushImm imm) = 17 ∧
    (s.sp.toNat ≤ Config.memTop →
      StoresByte (exec (.pushImm imm) s) s s.sp imm
        (fun m => { s with mem := m, sp := s.sp + 1, pc := s.pc + 2 })) ∧
    (Config.memTop < s.sp.toNat → exec (.pushImm imm) s = .fault (.accessOutOfRange s.pc s.sp))

/-- 42_stack_ops.md section 2: `PUSH Ar` stores A at SP and then increments SP, `POP` decrements SP and then reads
there, leaving the popped cell as it is; neither checks the stack's region (decisions D17 and D34, log 15 and
log 30). -/
def Obligations.PushAndPopMoveOneByte : Prop :=
  ∀ s : State,
    (Implemented s.sp →
      StoresByte (exec .pushAr s) s s.sp s.a (fun m => { s with mem := m, sp := s.sp + 1, pc := s.pc + 1 })) ∧
    (¬ Implemented s.sp → exec .pushAr s = .fault (.accessOutOfRange s.pc s.sp)) ∧
    (Implemented (s.sp - 1) →
      exec .pop s = .next { s with a := s.mem.read (s.sp - 1).toNat, sp := s.sp - 1, pc := s.pc + 1 }) ∧
    (¬ Implemented (s.sp - 1) → exec .pop s = .fault (.accessOutOfRange s.pc (s.sp - 1)))

/-- 42_stack_ops.md section 3: `PEEK` and `POKE`, by B or by an immediate, reach the byte at the signed offset from BP
and leave BP as it is (90_conflicts.md C4; sign extension as in log 37, the fault by decision D3, log 18). -/
def Obligations.PeekAndPokeReachFrameBytes : Prop :=
  ∀ (imm : Byte) (s : State),
    (Implemented (s.frameAddr imm) →
      exec (.peekImm imm) s = .next { s with a := s.mem.read (s.frameAddr imm).toNat, pc := s.pc + 2 } ∧
      StoresByte (exec (.pokeImm imm) s) s (s.frameAddr imm) s.a (fun m => { s with mem := m, pc := s.pc + 2 })) ∧
    (Implemented (s.frameAddr s.b) →
      exec .peekBr s = .next { s with a := s.mem.read (s.frameAddr s.b).toNat, pc := s.pc + 1 } ∧
      StoresByte (exec .pokeBr s) s (s.frameAddr s.b) s.a (fun m => { s with mem := m, pc := s.pc + 1 })) ∧
    (¬ Implemented (s.frameAddr imm) →
      exec (.peekImm imm) s = .fault (.accessOutOfRange s.pc (s.frameAddr imm)) ∧
      exec (.pokeImm imm) s = .fault (.accessOutOfRange s.pc (s.frameAddr imm))) ∧
    (¬ Implemented (s.frameAddr s.b) →
      exec .peekBr s = .fault (.accessOutOfRange s.pc (s.frameAddr s.b)) ∧
      exec .pokeBr s = .fault (.accessOutOfRange s.pc (s.frameAddr s.b)))

/-- 42_stack_ops.md section 4: `CALL` stores the address after it and the old BP in the four cells from SP on, low
bytes first, points BP at the last of them and SP past it, and goes to its operand; a cell above 0x3FFF faults, the
lowest such cell in the order of the stores being reported, with nothing stored (decisions D3, D18 and D26, log 18,
log 16 and log 25). -/
def Obligations.CallSavesFrame : Prop :=
  ∀ (addr : Addr) (s : State),
    ((∀ y ∈ fourFrom s.sp, Implemented y) →
      ∃ m : Memory,
        exec (.call addr) s = .next { s with mem := m, bp := s.sp + 3, sp := s.sp + 4, pc := addr } ∧
        m.read s.sp.toNat = loByte (s.pc + 3) ∧ m.read (s.sp + 1).toNat = hiByte (s.pc + 3) ∧
        m.read (s.sp + 2).toNat = loByte s.bp ∧ m.read (s.sp + 3).toNat = hiByte s.bp ∧
        ∀ x, (∀ y ∈ fourFrom s.sp, x ≠ y.toNat) → m.read x = s.mem.read x) ∧
    (∀ y, firstOutOfRange (fourFrom s.sp) = some y → exec (.call addr) s = .fault (.accessOutOfRange s.pc y))

/-- 42_stack_ops.md section 4: `RET` takes PC from BP - 3 and BP - 2 and the old BP from BP - 1 and BP, low bytes
first, and sets SP to BP - 3, whatever SP held; a cell above 0x3FFF faults (decisions D3 and D19, log 18 and
log 17). -/
def Obligations.RetRestoresFrame : Prop :=
  ∀ s : State,
    (Implemented (s.bp - 3) → Implemented (s.bp - 2) → Implemented (s.bp - 1) → Implemented s.bp →
      exec .ret s = .next { s with
        pc := joinBytes (s.mem.read (s.bp - 2).toNat) (s.mem.read (s.bp - 3).toNat)
        bp := joinBytes (s.mem.read s.bp.toNat) (s.mem.read (s.bp - 1).toNat)
        sp := s.bp - 3 }) ∧
    (∀ y, firstOutOfRange [s.bp - 3, s.bp - 2, s.bp - 1, s.bp] = some y →
      exec .ret s = .fault (.accessOutOfRange s.pc y))

/-- 42_stack_ops.md section 4: `RET` undoes `CALL`: in any state whose BP is the one `CALL` set and whose four frame
cells still hold what it stored, `RET` resumes after the `CALL` with the caller's BP and SP (decisions D18 and D19,
log 16 and log 17). -/
def Obligations.RetUndoesCall : Prop :=
  ∀ (addr : Addr) (s t u : State), exec (.call addr) s = .next t → u.bp = t.bp →
    (∀ y ∈ fourFrom s.sp, u.mem.read y.toNat = t.mem.read y.toNat) →
    exec .ret u = .next { u with pc := s.pc + 3, bp := s.bp, sp := s.sp }

/-- 42_stack_ops.md section 5, the frame: with `n` arguments pushed first to last, a `CALL` and `k` locals pushed, BP
and SP are as the frame table says, argument `i + 1` is reached with `PEEK` at offset 0x100 - (3 + n - i) and local
`j + 1` at offset `j + 1`, for up to 125 arguments and 127 locals. -/
def Obligations.FrameReachesArgumentsAndLocals : Prop :=
  ∀ (args locals : List Byte) (addr : Addr) (s : State), args.length ≤ 125 → locals.length ≤ 127 →
    s.sp.toNat + args.length + 4 + locals.length ≤ 0x4000 →
    ∃ t, execAll (args.map Instr.pushImm ++ Instr.call addr :: locals.map Instr.pushImm) s = .next t ∧
      t.bp.toNat = s.sp.toNat + args.length + 3 ∧ t.sp.toNat = s.sp.toNat + args.length + 4 + locals.length ∧
      (∀ (i : Nat) (v : Byte), args[i]? = some v →
        exec (.peekImm (BitVec.ofNat 8 (0x100 - (3 + args.length - i)))) t = .next { t with a := v, pc := t.pc + 2 }) ∧
      (∀ (j : Nat) (v : Byte), locals[j]? = some v →
        exec (.peekImm (BitVec.ofNat 8 (j + 1))) t = .next { t with a := v, pc := t.pc + 2 })

/-! ## ALU operations -/

/-- 43_alu_ops.md sections 1, 2 and 5: `ADD` by an immediate or B, and `INC` of A or B as addition of 1, with the four
flags of the sum and no carry-in (decisions D11 and D13, log 10 and log 12). -/
def Obligations.AdditionsSetResultAndFlags : Prop :=
  ∀ (imm : Byte) (s : State),
    exec (.addImm imm) s = .next { withSumFlags s.a imm s with a := s.a + imm, pc := s.pc + 2 } ∧
    exec .addBr s = .next { withSumFlags s.a s.b s with a := s.a + s.b, pc := s.pc + 1 } ∧
    exec .incAr s = .next { withSumFlags s.a 1 s with a := s.a + 1, pc := s.pc + 1 } ∧
    exec .incBr s = .next { withSumFlags s.b 1 s with b := s.b + 1, pc := s.pc + 1 }

/-- 43_alu_ops.md sections 1, 2 and 5: `SUB` by an immediate or B, and `DEC` of A or B as subtraction of 1, with the
four flags of the difference, C the borrow and no borrow-in (decisions D12 and D13, log 11 and log 12). -/
def Obligations.SubtractionsSetResultAndFlags : Prop :=
  ∀ (imm : Byte) (s : State),
    exec (.subImm imm) s = .next { withDiffFlags s.a imm s with a := s.a - imm, pc := s.pc + 2 } ∧
    exec .subBr s = .next { withDiffFlags s.a s.b s with a := s.a - s.b, pc := s.pc + 1 } ∧
    exec .decAr s = .next { withDiffFlags s.a 1 s with a := s.a - 1, pc := s.pc + 1 } ∧
    exec .decBr s = .next { withDiffFlags s.b 1 s with b := s.b - 1, pc := s.pc + 1 }

/-- 43_alu_ops.md section 3: `CLC` clears C and V and changes nothing else, Z and M included (decision D10, log 9). -/
def Obligations.ClcClearsCarryAndOverflow : Prop :=
  ∀ s : State, exec .clc s = .next { s with flagC := false, flagV := false, pc := s.pc + 1 }

/-- 43_alu_ops.md section 4: `SHL` doubles A modulo 256 and `SHR` halves it, both filling with 0, with the bit shifted
out in C and 0 in V (decision D15, log 14). -/
def Obligations.ShiftsMoveOneBit : Prop :=
  ∀ s : State,
    exec .shl s = .next
      { withResultFlags (BitVec.ofNat 8 (2 * s.a.toNat)) (decide (128 ≤ s.a.toNat)) s with
        a := BitVec.ofNat 8 (2 * s.a.toNat), pc := s.pc + 1 } ∧
    exec .shr s = .next
      { withResultFlags (BitVec.ofNat 8 (s.a.toNat / 2)) (decide (s.a.toNat % 2 = 1)) s with
        a := BitVec.ofNat 8 (s.a.toNat / 2), pc := s.pc + 1 }

/-- 43_alu_ops.md section 6: `AND`, `OR` and `XOR` by B or an immediate and `NOT` write A and all four flags, C and V
with 0 (decision D14, log 13; that the result of the B forms goes to A is log 39). -/
def Obligations.LogicSetsResultAndFlags : Prop :=
  ∀ (imm : Byte) (s : State),
    exec .andBr s = .next { withResultFlags (s.a &&& s.b) false s with a := s.a &&& s.b, pc := s.pc + 1 } ∧
    exec (.andImm imm) s = .next { withResultFlags (s.a &&& imm) false s with a := s.a &&& imm, pc := s.pc + 2 } ∧
    exec .orBr s = .next { withResultFlags (s.a ||| s.b) false s with a := s.a ||| s.b, pc := s.pc + 1 } ∧
    exec (.orImm imm) s = .next { withResultFlags (s.a ||| imm) false s with a := s.a ||| imm, pc := s.pc + 2 } ∧
    exec .xorBr s = .next { withResultFlags (s.a ^^^ s.b) false s with a := s.a ^^^ s.b, pc := s.pc + 1 } ∧
    exec (.xorImm imm) s = .next { withResultFlags (s.a ^^^ imm) false s with a := s.a ^^^ imm, pc := s.pc + 2 } ∧
    exec .notA s = .next { withResultFlags (~~~ s.a) false s with a := ~~~ s.a, pc := s.pc + 1 }

/-- 10_state.md R19 and 43_alu_ops.md section 1: V after `ADD`, `SUB`, `INC` and `DEC` says exactly that the true
result on two's-complement numbers is outside -128 to 127 (formula from general knowledge G2, log 37; decisions D11 to
D13). -/
def Obligations.OverflowMeansSignedOutOfRange : Prop :=
  ∀ (imm : Byte) (s t : State),
    (exec (.addImm imm) s = .next t → (t.flagV = true ↔ ¬ (-128 ≤ s.a.toInt + imm.toInt ∧ s.a.toInt + imm.toInt ≤ 127))) ∧
    (exec .addBr s = .next t → (t.flagV = true ↔ ¬ (-128 ≤ s.a.toInt + s.b.toInt ∧ s.a.toInt + s.b.toInt ≤ 127))) ∧
    (exec (.subImm imm) s = .next t → (t.flagV = true ↔ ¬ (-128 ≤ s.a.toInt - imm.toInt ∧ s.a.toInt - imm.toInt ≤ 127))) ∧
    (exec .subBr s = .next t → (t.flagV = true ↔ ¬ (-128 ≤ s.a.toInt - s.b.toInt ∧ s.a.toInt - s.b.toInt ≤ 127))) ∧
    (exec .incBr s = .next t → (t.flagV = true ↔ s.b.toInt = 127)) ∧
    (exec .decBr s = .next t → (t.flagV = true ↔ s.b.toInt = -128))

/-- 43_alu_ops.md R159: the same subtraction compares unsigned numbers by C and signed numbers by M and V (decisions
D12 and D16, log 11 and log 8). -/
def Obligations.SubtractionComparesBothWays : Prop :=
  ∀ (imm : Byte) (s : State), ∃ t, exec (.subImm imm) s = .next t ∧
    (t.flagC = true ↔ s.a.toNat < imm.toNat) ∧
    (t.flagZ = true ↔ s.a = imm) ∧
    ((t.flagM ^^ t.flagV) = true ↔ s.a.toInt < imm.toInt)

/-! ## Flow control -/

/-- 44_flow_control.md sections 1 and 2: `JMP` goes to its operand, whatever it is, and changes nothing else. -/
def Obligations.JmpGoesToOperand : Prop :=
  ∀ (addr : Addr) (s : State), exec (.jmp addr) s = .next { s with pc := addr }

/-- 44_flow_control.md section 1, the table of conditions: each conditional jump goes to its operand when its condition
holds of the flags and past itself when not, and changes nothing else (decisions D16 and D30, log 8 and log 29). -/
def Obligations.ConditionalJumpsFollowFlags : Prop :=
  ∀ (addr : Addr) (s : State),
    exec (.jz addr) s = .next { s with pc := if s.flagZ = true then addr else s.pc + 3 } ∧
    exec (.jnz addr) s = .next { s with pc := if s.flagZ = false then addr else s.pc + 3 } ∧
    exec (.jm addr) s = .next { s with pc := if s.flagM = true then addr else s.pc + 3 } ∧
    exec (.jp addr) s = .next { s with pc := if s.flagZ = false ∧ s.flagM = false then addr else s.pc + 3 } ∧
    exec (.jc addr) s = .next { s with pc := if s.flagC = true then addr else s.pc + 3 } ∧
    exec (.jnc addr) s = .next { s with pc := if s.flagC = false then addr else s.pc + 3 } ∧
    exec (.jof addr) s = .next { s with pc := if s.flagV = true then addr else s.pc + 3 } ∧
    exec (.jnof addr) s = .next { s with pc := if s.flagV = false then addr else s.pc + 3 }

/-- 44_flow_control.md section 1: after an ALU instruction has left the result `x.value`, `JZ` jumps on a result equal
to zero, `JNZ` on another, `JM` on one less than zero and `JP` on one greater than zero, as 8-bit two's-complement
numbers (decision D16, log 8). -/
def Obligations.JumpsTestSignOfLastResult : Prop :=
  ∀ (addr : Addr) (x : AluResult) (s t : State), t = s.setFlags x →
    exec (.jz addr) t = .next { t with pc := if x.value.toInt = 0 then addr else s.pc + 3 } ∧
    exec (.jnz addr) t = .next { t with pc := if x.value.toInt = 0 then s.pc + 3 else addr } ∧
    exec (.jm addr) t = .next { t with pc := if x.value.toInt < 0 then addr else s.pc + 3 } ∧
    exec (.jp addr) t = .next { t with pc := if 0 < x.value.toInt then addr else s.pc + 3 }

/-! ## What every instruction keeps to -/

/-- 20_memory.md section 3 (R50): an instruction changes no byte of memory outside the bytes it writes. -/
def Obligations.StoresStayInsideWriteFootprint : Prop :=
  ∀ (i : Instr) (s t : State), exec i s = .next t →
    ∀ x : Nat, (∀ y ∈ dataWrites i s, y.toNat ≠ x) → t.mem.read x = s.mem.read x

/-- 20_memory.md R43, R52 and 60_exceptions.md R193 (decisions D3 and D26, log 18 and log 25): an instruction answers a
next state exactly when every address it reads or writes is implemented; otherwise it raises the access fault for the
first that is not, in the order of 60_exceptions.md R195; it is never refused. -/
def Obligations.ExecCompletesIffFootprintImplemented : Prop :=
  ∀ (i : Instr) (s : State),
    ((∃ t, exec i s = .next t) ↔ ∀ y ∈ dataReads i s ++ dataWrites i s, Implemented y) ∧
    (∀ f, exec i s = .fault f ↔
      ∃ y, firstOutOfRange (dataReads i s ++ dataWrites i s) = some y ∧ f = .accessOutOfRange s.pc y) ∧
    (∀ r, exec i s ≠ .refused r)

/-- 10_state.md section 6, the columns "Writes" and "Flags" (part of R12; decision D10, log 9): a register, a flag, the
memory or the console that the table does not name for an instruction is unchanged, and an instruction that transfers
no control goes to the next one (10_state.md R14). -/
def Obligations.InstructionsWriteOnlyTabledState : Prop :=
  ∀ (i : Instr) (s t : State), exec i s = .next t →
    ((writesOf i).a = false → t.a = s.a) ∧ ((writesOf i).b = false → t.b = s.b) ∧
    ((writesOf i).sp = false → t.sp = s.sp) ∧ ((writesOf i).bp = false → t.bp = s.bp) ∧
    ((writesOf i).zm = false → t.flagZ = s.flagZ ∧ t.flagM = s.flagM) ∧
    ((writesOf i).cv = false → t.flagC = s.flagC ∧ t.flagV = s.flagV) ∧
    ((writesOf i).mem = false → t.mem = s.mem) ∧ ((writesOf i).console = false → t.console = s.console) ∧
    ((writesOf i).transfers = false → t.pc = s.pc + BitVec.ofNat 16 i.length)

/-- 10_state.md section 6, the column "Reads" (part of R12): in two states that agree on PC, memory, the console and
the registers and flags the table says an instruction reads, it has the same outcome: the same fault, or next states
that agree on everything it writes and that keep everything else as each of them had it. So no instruction but the
conditional jumps depends on a flag (10_state.md R18, R20; decisions D10 to D12). -/
def Obligations.InstructionsReadOnlyTabledState : Prop :=
  ∀ (i : Instr) (s s' : State),
    ((readsOf i).a = true → s'.a = s.a) → ((readsOf i).b = true → s'.b = s.b) →
    ((readsOf i).sp = true → s'.sp = s.sp) → ((readsOf i).bp = true → s'.bp = s.bp) →
    ((readsOf i).z = true → s'.flagZ = s.flagZ) → ((readsOf i).m = true → s'.flagM = s.flagM) →
    ((readsOf i).c = true → s'.flagC = s.flagC) → ((readsOf i).v = true → s'.flagV = s.flagV) →
    s'.pc = s.pc → s'.mem = s.mem → s'.console = s.console →
    SameOutcome
      (fun t t' => t' = { t with
        a := if (writesOf i).a then t.a else s'.a
        b := if (writesOf i).b then t.b else s'.b
        sp := if (writesOf i).sp then t.sp else s'.sp
        bp := if (writesOf i).bp then t.bp else s'.bp
        flagZ := if (writesOf i).zm then t.flagZ else s'.flagZ
        flagM := if (writesOf i).zm then t.flagM else s'.flagM
        flagC := if (writesOf i).cv then t.flagC else s'.flagC
        flagV := if (writesOf i).cv then t.flagV else s'.flagV })
      (exec i s) (exec i s')

/-- 20_memory.md R48, R50 and R51: a step depends on memory only through the bytes it fetches and the data bytes the
fetched instruction reads. With another memory that agrees on those it faults alike, or reaches the same registers,
flags and console, writes the same bytes, and leaves the other memory's bytes elsewhere. -/
def Obligations.StepDependsOnlyOnBytesItReads : Prop :=
  ∀ (s : State) (m : Memory),
    (∀ y ∈ s.fetchAddrs, m.read y.toNat = s.mem.read y.toNat) →
    (∀ i, s.fetch = .ok i → ∀ y ∈ dataReads i s, m.read y.toNat = s.mem.read y.toNat) →
    SameOutcome
      (fun t t' => t' = { t with mem := t'.mem } ∧
        ∀ i, s.fetch = .ok i →
          (∀ y ∈ dataWrites i s, t'.mem.read y.toNat = t.mem.read y.toNat) ∧
          (∀ x : Nat, (∀ y ∈ dataWrites i s, y.toNat ≠ x) → t'.mem.read x = m.read x))
      (step s) (step { s with mem := m })

/-- The canonical form of memory (the model's own, log 1) is an invariant of every step from every state, not only of
runs from reset: no entry above 0x3FFF (20_memory.md R43), addresses strictly rising, no entry listed needlessly. -/
def Obligations.StepKeepsMemoryCanonical : Prop :=
  ∀ s t : State, s.mem.wf = true → step s = .next t → t.mem.wf = true

/-- The memory of `State.boot` is the image it is given, so it is canonical when the image is; that of the reset state
is canonical (the model's own form, log 1). -/
def Obligations.ResetMemoryIsCanonical : Prop :=
  (∀ (r : ResetValues) (image : Memory), image.wf = true → (State.boot r image).mem.wf = true) ∧
  State.reset.mem.wf = true

/-- Canonical memories that read alike at every address are the same list, so equality of states is equality of what
they hold (the model's own form, log 1). -/
def Obligations.CanonicalMemoriesThatReadAlikeAreEqual : Prop :=
  ∀ m n : Memory, m.wf = true → n.wf = true → (∀ x, m.read x = n.read x) → m = n

/-! ## Encoding and decoding -/

/-- 30_encoding.md sections 2 and 3: decoding the encoding of any instruction, whatever follows it, gives the
instruction and what follows, and bytes that decode to an instruction are its encoding: the two are inverse, no bit of
an encoding is dropped and no instruction has a second encoding (operand byte order by decision D4, log 4). -/
def Obligations.DecodeAndEncodeAreInverse : Prop :=
  (∀ (i : Instr) (rest : List Byte), i.wellFormed = true → decode (encode i ++ rest) = .ok (i, rest)) ∧
  (∀ (bytes rest : List Byte) (i : Instr), decode bytes = .ok (i, rest) →
    i.wellFormed = true ∧ bytes = encode i ++ rest)

/-- 95_test_vectors.md section 2.5 and 30_encoding.md R75: some words decode to the instructions they stand for
(operand byte order by decision D4, log 4). -/
def Obligations.WordsDecodeAsListed : Prop :=
  decode [0x07] = .ok (.swp, []) ∧ decode [0x23] = .ok (.xorBr, []) ∧
  decode [0x13, 0x23] = .ok (.addImm 0x23, []) ∧ decode [0x88, 0x01] = .ok (.peekImm 0x01, []) ∧
  decode [0x8E] = .ok (.peekBr, []) ∧ decode [0xD2, 0x34, 0x12] = .ok (.jof 0x1234, []) ∧
  decode [0x0A, 0x20] = .ok (.ldzZp 0x20, []) ∧ decode [0x85, 0x20, 0x01] = .ok (.call 0x0120, []) ∧
  decode [0x00] = .error (.illegalOpcode 0x00) ∧ decode [0xFF] = .error (.illegalOpcode 0xFF)

/-- 30_encoding.md section 3 (R75) and 70_reset_and_hazards.md R231: each opcode byte has the form, the format, the
length and the cycles its row gives, and the 50 bytes are distinct. -/
def Obligations.OpcodeTableRowsHold : Prop :=
  (opcodeRows.map (fun row => row.1)).Nodup ∧ opcodeRows.length = 50 ∧
  ∀ row ∈ opcodeRows,
    (encode row.2.1).head? = some row.1 ∧ (opcodeForm row.1).map Form.format = some row.2.2.1 ∧
    row.2.1.length = row.2.2.1.length ∧ cycles row.2.1 = row.2.2.2

/-- 30_encoding.md R78: 50 opcode bytes are defined, and a byte is undefined exactly when it is in the listed ranges. -/
def Obligations.UndefinedOpcodesAsListed : Prop :=
  ((List.range 256).filter (fun n => (opcodeForm (BitVec.ofNat 8 n)).isSome)).length = 50 ∧
  ∀ n : Nat, n < 256 →
    ((opcodeForm (BitVec.ofNat 8 n)).isSome = false ↔
      n = 0x00 ∨ (0x0D ≤ n ∧ n ≤ 0x0F) ∨ (0x10 ≤ n ∧ n ≤ 0x12) ∨ (0x16 ≤ n ∧ n ≤ 0x1F) ∨ n = 0x20 ∨ n = 0x2E ∨ n = 0x2F ∨
      n = 0x30 ∨ (0x33 ≤ n ∧ n ≤ 0x3F) ∨ (0x40 ≤ n ∧ n ≤ 0x42) ∨ (0x45 ≤ n ∧ n ≤ 0x4F) ∨ (0x50 ≤ n ∧ n ≤ 0x7F) ∨
      n = 0x80 ∨ (0x82 ≤ n ∧ n ≤ 0x84) ∨ n = 0x8D ∨ n = 0x8F ∨ n = 0x90 ∨ (0x92 ≤ n ∧ n ≤ 0x9F) ∨ n = 0xA0 ∨
      (0xA2 ≤ n ∧ n ≤ 0xAF) ∨ n = 0xB0 ∨ (0xB2 ≤ n ∧ n ≤ 0xBF) ∨ n = 0xC0 ∨ (0xC2 ≤ n ∧ n ≤ 0xCF) ∨ n = 0xD0 ∨
      (0xD3 ≤ n ∧ n ≤ 0xDF) ∨ n = 0xE0 ∨ (0xE3 ≤ n ∧ n ≤ 0xEF) ∨ (0xF0 ≤ n ∧ n ≤ 0xFF))

/-- 30_encoding.md section 1 (R70 to R72): the first byte of an instruction's encoding is its class times 16 plus its
modifier. -/
def Obligations.ClassAndModifierMakeOpcode : Prop :=
  ∀ i : Instr,
    (encode i).head? = some (opcodeOf (symbolsOf i).1 (symbolsOf i).2) ∧
    (opcodeOf (symbolsOf i).1 (symbolsOf i).2).toNat =
      16 * (symbolsOf i).1.nibble.toNat + (symbolsOf i).2.nibble.toNat

/-- 30_encoding.md section 5 (R85, R86, R93): the written form of an instruction selects it and no other, and a written
instruction has an opcode exactly when its operand kinds are one of its mnemonic's forms. -/
def Obligations.SpellingsSelectInstructions : Prop :=
  (∀ (src : SourceInstr) (i : Instr), assemble src = some i ↔ i.spelling = src) ∧
  (∀ src : SourceInstr, (assemble src).isSome = src.wellFormed)

/-! ## The step and the run -/

/-- 70_reset_and_hazards.md section 3 (R224, decision D26, log 25): when the bytes at PC, one, two or three of them,
decode to a well-formed instruction and are all implemented, the step is `exec` of that instruction at that state,
with nothing before or after it. -/
def Obligations.StepRunsDecodedInstruction : Prop :=
  ∀ (s : State) (i : Instr) (rest : List Byte),
    decode [s.readByte s.pc, s.readByte (s.pc + 1), s.readByte (s.pc + 2)] = .ok (i, rest) → i.wellFormed = true →
    (∀ k : Nat, k < i.length → Implemented (s.pc + BitVec.ofNat 16 k)) →
    step s = exec i s

/-- 60_exceptions.md R195 and 70_reset_and_hazards.md R224 (1) to (4) (decisions D3, D20 and D26, log 18, log 19 and
log 25): the order of the fetch's checks. PC above 0x3FFF comes first, then an undefined opcode, then the first
operand byte above 0x3FFF. -/
def Obligations.FetchFaultsInOrder : Prop :=
  ∀ s : State,
    (¬ Implemented s.pc → step s = .fault (.accessOutOfRange s.pc s.pc)) ∧
    (Implemented s.pc → opcodeForm (s.readByte s.pc) = none →
      step s = .fault (.illegalOpcode s.pc (s.readByte s.pc))) ∧
    (∀ (form : Form) (k : Nat), Implemented s.pc → opcodeForm (s.readByte s.pc) = some form →
      0 < k → k < form.format.length → ¬ Implemented (s.pc + BitVec.ofNat 16 k) →
      (∀ j, 0 < j → j < k → Implemented (s.pc + BitVec.ofNat 16 j)) →
      step s = .fault (.accessOutOfRange s.pc (s.pc + BitVec.ofNat 16 k)))

/-- 60_exceptions.md R190 to R193 (decisions D3, D20 and D21, log 18 to log 20): every state steps or faults, no step
is refused, and a fault is one of two: an undefined opcode at an implemented PC, or an address above 0x3FFF, each
recording PC. -/
def Obligations.StepAnswersNextOrOneOfTwoFaults : Prop :=
  ∀ s : State,
    (∃ t, step s = .next t) ∨
    (Implemented s.pc ∧ opcodeForm (s.readByte s.pc) = none ∧
      step s = .fault (.illegalOpcode s.pc (s.readByte s.pc))) ∨
    (∃ addr, ¬ Implemented addr ∧ step s = .fault (.accessOutOfRange s.pc addr))

/-- 20_memory.md R57 (decision D24, log 23): a store is seen by the very next fetch. A `MOV [MEM] Ar` that overwrites
the byte after it with a one-byte instruction's opcode is followed by that instruction. -/
def Obligations.NextFetchSeesStore : Prop :=
  ∀ (s : State) (i : Instr), (∀ k : Nat, k < 4 → Implemented (s.pc + BitVec.ofNat 16 k)) →
    s.readByte s.pc = 0x05 → s.readByte (s.pc + 1) = loByte (s.pc + 3) → s.readByte (s.pc + 2) = hiByte (s.pc + 3) →
    opcodeForm s.a = some (.f1 i) →
    ∃ t, step s = .next t ∧ t.pc = s.pc + 3 ∧ step t = exec i t

/-- 70_reset_and_hazards.md section 4 (R223, decision D23, log 22): a `JMP` to its own address is a fixed point of the
step, so a run that spins there any number of steps stays as it is, and ends when `END_PC` is that address. -/
def Obligations.SelfJumpIsFixedPoint : Prop :=
  ∀ s : State, (∀ k : Nat, k < 3 → Implemented (s.pc + BitVec.ofNat 16 k)) →
    s.readByte s.pc = 0x81 → s.readByte (s.pc + 1) = loByte s.pc → s.readByte (s.pc + 2) = hiByte s.pc →
    step s = .next s ∧
    (∀ (endPc : Addr) (n : Nat), s.pc ≠ endPc → (RunState.running s).after endPc n = .running s) ∧
    (∀ n : Nat, (RunState.running s).after s.pc (n + 1) = .ended s)

/-- 60_exceptions.md R191 and 70_reset_and_hazards.md R223, R224 (decisions D20 and D23, log 32 and log 22): wherever a
run from a running state stands, it is not refused; where it has ended, PC is `END_PC`; where it has faulted, its state
is the one whose step raised the recorded fault, PC is not `END_PC`; and from both it goes nowhere. -/
def Obligations.RunsEndOrFaultForGood : Prop :=
  ∀ (endPc : Addr) (s : State) (n : Nat),
    (∀ t r, (RunState.running s).after endPc n ≠ .refused t r) ∧
    (∀ t, (RunState.running s).after endPc n = .ended t →
      t.pc = endPc ∧ ∀ k, (RunState.running s).after endPc (n + k) = .ended t) ∧
    (∀ t f, (RunState.running s).after endPc n = .faulted t f →
      step t = .fault f ∧ t.pc ≠ endPc ∧ ∀ k, (RunState.running s).after endPc (n + k) = .faulted t f)

/-- 60_exceptions.md R200 (decision D27, log 26): the console only grows: what a run has printed stays, in order, at
the front of what it has printed later. -/
def Obligations.ConsoleOnlyGrows : Prop :=
  ∀ (endPc : Addr) (n : Nat) (r : RunState), ∃ more, (r.after endPc n).state.console = r.state.console ++ more

/-- 70_reset_and_hazards.md R232 (decision D30, log 29): durations add up: the duration of `m + n` steps is that of the
first `m` and that of the `n` after them; and a step that executes an instruction lasts its figure. -/
def Obligations.DurationsAddUp : Prop :=
  (∀ (endPc : Addr) (m n : Nat) (r : RunState),
    r.duration endPc (m + n) = r.duration endPc m + (r.after endPc m).duration endPc n) ∧
  (∀ (endPc : Addr) (i : Instr) (s t : State), s.pc ≠ endPc → s.fetch = .ok i → exec i s = .next t →
    (RunState.running s).duration endPc 1 = cycles i)

/-- 70_reset_and_hazards.md R220 and R221 (decisions D22 and D32, log 21, log 1 and log 2): whatever the unspecified
values and the image, a run starts at 0x0100 with SP at 0x0E00, nothing printed and memory as the image has it; the
reset state is one of these starts. -/
def Obligations.RunsStartAsSpecified : Prop :=
  (∀ (r : ResetValues) (image : Memory), ∃ s : State, RunState.start r image = .running s ∧
    s.pc = 0x0100 ∧ s.sp = 0x0E00 ∧ s.console = [] ∧ (∀ x, s.mem.read x = image.read x) ∧
    s.a = r.a ∧ s.b = r.b ∧ s.bp = r.bp ∧
    s.flagZ = r.flagZ ∧ s.flagM = r.flagM ∧ s.flagC = r.flagC ∧ s.flagV = r.flagV) ∧
  ∃ r image, State.reset = State.boot r image

/-! ## Memory map, display and the readings -/

/-- 20_memory.md section 1 (R40): the regions' sizes, that they follow one another without a gap, and that they cover
0x0000 to 0x3FFF exactly: every address there is in one region and no other address is in any. -/
def Obligations.MemoryMapCoversImplementedAddresses : Prop :=
  Region.all.map Region.size = [256, 2304, 960, 32, 32, 512, 4096, 8192] ∧
  (Region.all.map Region.size).sum = 16384 ∧
  (∀ (x : Nat) (r : Region), regionOf x = some r ↔ r.first ≤ x ∧ x ≤ r.last) ∧
  (∀ x : Nat, (regionOf x).isSome = true ↔ x ≤ 0x3FFF)

/-- 60_exceptions.md R202, R203 (decision D28, log 27): the picture of a visible cell depends only on the glyphs at
0x1000 to 0x1FFF and the codes at 0x2000 to 0x23FF. -/
def Obligations.PictureDependsOnlyOnGlyphsAndCodes : Prop :=
  ∀ m n : Memory, (∀ x, 0x1000 ≤ x → x ≤ 0x23FF → m.read x = n.read x) →
    ∀ i y x : Nat, i < 1024 → y < 8 → x < 8 → picturePixel m i y x = picturePixel n i y x

/-- 41_memory_ops.md R100 (decision D7) and 20_memory.md R46, R47 (decisions D4 to D6): where the two readings of the
offset in B, of the order of two bytes, and of the pointer at 0xFF agree, and by how much the first differ. -/
def Obligations.AddressReadingsAgreeWhereStated : Prop :=
  (∀ (base : Addr) (v : Byte), v.msb = false → base + indexOffset true v = base + indexOffset false v) ∧
  (∀ (base : Addr) (v : Byte), v.msb = true → base + indexOffset false v = base + indexOffset true v + 0x0100) ∧
  (∀ x y : Byte, orderPair true x y = orderPair false x y ↔ x = y) ∧
  (∀ zp : Byte, zpSecond true zp = zpSecond false zp ↔ zp ≠ 0xFF)

/-- 42_stack_ops.md R129 (decision D19) and 43_alu_ops.md R140 (decisions D11, D12): the two readings of `RET` find one
frame exactly when SP is BP + 1; with C = 0 a carry-in or borrow-in changes nothing; the two polarities of C after a
subtraction never agree. -/
def Obligations.FrameAndCarryReadingsAgreeWhereStated : Prop :=
  (∀ sp bp : Addr, retFrame true sp bp = retFrame false sp bp ↔ sp = bp + 1) ∧
  (∀ x y : Byte, add8 (carryIn true false) x y = add8 (carryIn false false) x y) ∧
  (∀ x y : Byte, sub8 true (borrowIn true true false) x y = sub8 true (borrowIn false true false) x y) ∧
  (∀ (bin : Bool) (x y : Byte), (sub8 true bin x y).carry ≠ (sub8 false bin x y).carry)
end

