-- ==== Sys2Proof/Laws/Memory.lean ====
section
/-! SUPPORT. What the memory operations do, said once: a read after a write, and the canonical form that every
operation keeps. -/

namespace Sys2Proof.Machine

@[simp] theorem Memory.read_nil (a : Nat) : Memory.read [] a = unlistedByte := rfl

@[simp] theorem Memory.read_cons (k : Nat) (v : Byte) (rest : Memory) (a : Nat) :
    Memory.read ((k, v) :: rest) a = if k = a then v else Memory.read rest a := rfl

@[simp] theorem Memory.wf_nil : Memory.wf [] = true := rfl

theorem Memory.wf_cons (k : Nat) (v : Byte) (rest : Memory) :
    Memory.wf ((k, v) :: rest) = true ↔
      k ≤ Config.memTop ∧ v ≠ unlistedByte ∧ (∀ cell ∈ rest, k < cell.1) ∧ Memory.wf rest = true := by
  simp [Memory.wf, and_assoc]

theorem Memory.read_erase (m : Memory) (a x : Nat) :
    (m.erase a).read x = if x = a then unlistedByte else m.read x := by
  induction m with
  | nil => simp [Memory.erase]
  | cons cell rest ih =>
    obtain ⟨k, v⟩ := cell
    by_cases hk : k = a
    · subst hk
      have : Memory.erase ((k, v) :: rest) k = Memory.erase rest k := by simp [Memory.erase]
      rw [this, ih]
      by_cases hx : x = k
      · simp [hx]
      · simp [hx, Ne.symm hx]
    · have : Memory.erase ((k, v) :: rest) a = (k, v) :: Memory.erase rest a := by simp [Memory.erase, hk]
      rw [this, Memory.read_cons, Memory.read_cons, ih]
      by_cases hx : x = a
      · subst hx; simp [hk]
      · simp [hx]

theorem Memory.read_place (m : Memory) (a : Nat) (v : Byte) (x : Nat) :
    (∀ c ∈ m, c.1 ≠ a) → (m.place a v).read x = if x = a then v else m.read x := by
  intro hne
  induction m with
  | nil => simp [Memory.place, eq_comm]
  | cons cell rest ih =>
    obtain ⟨k, w⟩ := cell
    have hk : k ≠ a := hne (k, w) (by simp)
    have hrest : ∀ c ∈ rest, c.1 ≠ a := fun c hc => hne c (by simp [hc])
    unfold Memory.place
    split
    · by_cases hx : x = a
      · simp [hx]
      · simp [hx, Ne.symm hx]
    · rw [Memory.read_cons, ih hrest, Memory.read_cons]
      by_cases hx : x = a
      · subst hx; simp [hk]
      · simp [hx]

theorem Memory.erase_no_entry (m : Memory) (a : Nat) : ∀ c ∈ m.erase a, c.1 ≠ a := by
  intro c hc
  simpa [Memory.erase] using (List.mem_filter.mp hc).2

/-- A read after a write: the written byte at its address, the old byte everywhere else. It holds of every list, in
canonical form or not. -/
theorem Memory.read_write (m : Memory) (a : Nat) (v : Byte) (x : Nat) :
    (m.write a v).read x = if x = a then v else m.read x := by
  unfold Memory.write
  split
  · rename_i hv
    rw [Memory.read_erase, hv]
  · rw [Memory.read_place _ _ _ _ (Memory.erase_no_entry m a), Memory.read_erase]
    by_cases hx : x = a <;> simp [hx]

@[simp] theorem Memory.read_write_same (m : Memory) (a : Nat) (v : Byte) : (m.write a v).read a = v := by
  simp [Memory.read_write]

theorem Memory.read_write_other (m : Memory) {a x : Nat} (v : Byte) (h : x ≠ a) : (m.write a v).read x = m.read x := by
  simp [Memory.read_write, h]

theorem Memory.erase_wf (m : Memory) (a : Nat) (h : m.wf = true) : (m.erase a).wf = true := by
  induction m with
  | nil => simp [Memory.erase]
  | cons cell rest ih =>
    obtain ⟨k, v⟩ := cell
    obtain ⟨h1, h2, h3, h4⟩ := (Memory.wf_cons k v rest).mp h
    by_cases hk : k = a
    · have : Memory.erase ((k, v) :: rest) a = Memory.erase rest a := by simp [Memory.erase, hk]
      rw [this]
      exact ih h4
    · have : Memory.erase ((k, v) :: rest) a = (k, v) :: Memory.erase rest a := by simp [Memory.erase, hk]
      rw [this, Memory.wf_cons]
      exact ⟨h1, h2, fun c hc => h3 c (List.mem_filter.mp hc).1, ih h4⟩

theorem Memory.mem_place (m : Memory) (a : Nat) (v : Byte) (c : Host.Cell) : c ∈ m.place a v → c = (a, v) ∨ c ∈ m := by
  induction m with
  | nil => simp [Memory.place]
  | cons cell rest ih =>
    obtain ⟨k, w⟩ := cell
    unfold Memory.place
    split
    · simp
    · intro hc
      rcases List.mem_cons.mp hc with h | h
      · exact .inr (by simp [h])
      · rcases ih h with h' | h'
        · exact .inl h'
        · exact .inr (by simp [h'])

theorem Memory.place_wf (m : Memory) (a : Nat) (v : Byte) (h : m.wf = true) (ha : a ≤ Config.memTop)
    (hv : v ≠ unlistedByte) (hne : ∀ c ∈ m, c.1 ≠ a) : (m.place a v).wf = true := by
  induction m with
  | nil => simp [Memory.place, Memory.wf_cons, ha, hv]
  | cons cell rest ih =>
    obtain ⟨k, w⟩ := cell
    obtain ⟨h1, h2, h3, h4⟩ := (Memory.wf_cons k w rest).mp h
    have hk : k ≠ a := hne (k, w) (by simp)
    unfold Memory.place
    split
    · rename_i hlt
      rw [Memory.wf_cons]
      refine ⟨ha, hv, ?_, h⟩
      intro c hc
      rcases List.mem_cons.mp hc with h' | h'
      · simpa [h'] using hlt
      · exact Nat.lt_trans hlt (h3 c h')
    · rename_i hlt
      rw [Memory.wf_cons]
      refine ⟨h1, h2, ?_, ih h4 (fun c hc => hne c (by simp [hc]))⟩
      intro c hc
      rcases Memory.mem_place rest a v c hc with h' | h'
      · simp [h']; omega
      · exact h3 c h'

/-- A write to an implemented address keeps the canonical form. -/
theorem Memory.write_wf (m : Memory) (a : Nat) (v : Byte) (h : m.wf = true) (ha : a ≤ Config.memTop) :
    (m.write a v).wf = true := by
  unfold Memory.write
  split
  · exact Memory.erase_wf m a h
  · rename_i hv
    exact Memory.place_wf _ a v (Memory.erase_wf m a h) ha hv (Memory.erase_no_entry m a)

/-- An image built from pairs is in canonical form. -/
theorem Memory.ofCells_wf (cells : List Host.Cell) : (Memory.ofCells cells).wf = true := by
  induction cells with
  | nil => rfl
  | cons cell rest ih =>
    obtain ⟨a, v⟩ := cell
    unfold Memory.ofCells
    split
    · rename_i ha
      exact Memory.write_wf _ a v ih ha
    · exact ih

end Sys2Proof.Machine
end

