-- ==== Sys2Proof/Laws/State.lean ====
section
/-! SUPPORT. One lemma per field per update of the state, so that no proof unfolds a record update. -/

namespace Sys2Proof.Machine

@[simp] theorem State.setA_a (s : State) (v : Byte) : (s.setA v).a = v := rfl
@[simp] theorem State.setA_b (s : State) (v : Byte) : (s.setA v).b = s.b := rfl
@[simp] theorem State.setA_pc (s : State) (v : Byte) : (s.setA v).pc = s.pc := rfl
@[simp] theorem State.setA_sp (s : State) (v : Byte) : (s.setA v).sp = s.sp := rfl
@[simp] theorem State.setA_bp (s : State) (v : Byte) : (s.setA v).bp = s.bp := rfl
@[simp] theorem State.setA_flagZ (s : State) (v : Byte) : (s.setA v).flagZ = s.flagZ := rfl
@[simp] theorem State.setA_flagM (s : State) (v : Byte) : (s.setA v).flagM = s.flagM := rfl
@[simp] theorem State.setA_flagC (s : State) (v : Byte) : (s.setA v).flagC = s.flagC := rfl
@[simp] theorem State.setA_flagV (s : State) (v : Byte) : (s.setA v).flagV = s.flagV := rfl
@[simp] theorem State.setA_mem (s : State) (v : Byte) : (s.setA v).mem = s.mem := rfl
@[simp] theorem State.setA_console (s : State) (v : Byte) : (s.setA v).console = s.console := rfl
@[simp] theorem State.setA_readByte (s : State) (v : Byte) (y : Addr) : (s.setA v).readByte y = s.readByte y := rfl
@[simp] theorem State.setA_readWord (s : State) (v : Byte) (y : Addr) : (s.setA v).readWord y = s.readWord y := rfl

@[simp] theorem State.setB_a (s : State) (v : Byte) : (s.setB v).a = s.a := rfl
@[simp] theorem State.setB_b (s : State) (v : Byte) : (s.setB v).b = v := rfl
@[simp] theorem State.setB_pc (s : State) (v : Byte) : (s.setB v).pc = s.pc := rfl
@[simp] theorem State.setB_sp (s : State) (v : Byte) : (s.setB v).sp = s.sp := rfl
@[simp] theorem State.setB_bp (s : State) (v : Byte) : (s.setB v).bp = s.bp := rfl
@[simp] theorem State.setB_flagZ (s : State) (v : Byte) : (s.setB v).flagZ = s.flagZ := rfl
@[simp] theorem State.setB_flagM (s : State) (v : Byte) : (s.setB v).flagM = s.flagM := rfl
@[simp] theorem State.setB_flagC (s : State) (v : Byte) : (s.setB v).flagC = s.flagC := rfl
@[simp] theorem State.setB_flagV (s : State) (v : Byte) : (s.setB v).flagV = s.flagV := rfl
@[simp] theorem State.setB_mem (s : State) (v : Byte) : (s.setB v).mem = s.mem := rfl
@[simp] theorem State.setB_console (s : State) (v : Byte) : (s.setB v).console = s.console := rfl
@[simp] theorem State.setB_readByte (s : State) (v : Byte) (y : Addr) : (s.setB v).readByte y = s.readByte y := rfl
@[simp] theorem State.setB_readWord (s : State) (v : Byte) (y : Addr) : (s.setB v).readWord y = s.readWord y := rfl

@[simp] theorem State.setPc_a (s : State) (w : Addr) : (s.setPc w).a = s.a := rfl
@[simp] theorem State.setPc_b (s : State) (w : Addr) : (s.setPc w).b = s.b := rfl
@[simp] theorem State.setPc_pc (s : State) (w : Addr) : (s.setPc w).pc = w := rfl
@[simp] theorem State.setPc_sp (s : State) (w : Addr) : (s.setPc w).sp = s.sp := rfl
@[simp] theorem State.setPc_bp (s : State) (w : Addr) : (s.setPc w).bp = s.bp := rfl
@[simp] theorem State.setPc_flagZ (s : State) (w : Addr) : (s.setPc w).flagZ = s.flagZ := rfl
@[simp] theorem State.setPc_flagM (s : State) (w : Addr) : (s.setPc w).flagM = s.flagM := rfl
@[simp] theorem State.setPc_flagC (s : State) (w : Addr) : (s.setPc w).flagC = s.flagC := rfl
@[simp] theorem State.setPc_flagV (s : State) (w : Addr) : (s.setPc w).flagV = s.flagV := rfl
@[simp] theorem State.setPc_mem (s : State) (w : Addr) : (s.setPc w).mem = s.mem := rfl
@[simp] theorem State.setPc_console (s : State) (w : Addr) : (s.setPc w).console = s.console := rfl
@[simp] theorem State.setPc_readByte (s : State) (w : Addr) (y : Addr) : (s.setPc w).readByte y = s.readByte y := rfl
@[simp] theorem State.setPc_readWord (s : State) (w : Addr) (y : Addr) : (s.setPc w).readWord y = s.readWord y := rfl

@[simp] theorem State.advance_a (s : State) (w : Addr) : (s.advance w).a = s.a := rfl
@[simp] theorem State.advance_b (s : State) (w : Addr) : (s.advance w).b = s.b := rfl
@[simp] theorem State.advance_pc (s : State) (w : Addr) : (s.advance w).pc = s.pc + w := rfl
@[simp] theorem State.advance_sp (s : State) (w : Addr) : (s.advance w).sp = s.sp := rfl
@[simp] theorem State.advance_bp (s : State) (w : Addr) : (s.advance w).bp = s.bp := rfl
@[simp] theorem State.advance_flagZ (s : State) (w : Addr) : (s.advance w).flagZ = s.flagZ := rfl
@[simp] theorem State.advance_flagM (s : State) (w : Addr) : (s.advance w).flagM = s.flagM := rfl
@[simp] theorem State.advance_flagC (s : State) (w : Addr) : (s.advance w).flagC = s.flagC := rfl
@[simp] theorem State.advance_flagV (s : State) (w : Addr) : (s.advance w).flagV = s.flagV := rfl
@[simp] theorem State.advance_mem (s : State) (w : Addr) : (s.advance w).mem = s.mem := rfl
@[simp] theorem State.advance_console (s : State) (w : Addr) : (s.advance w).console = s.console := rfl
@[simp] theorem State.advance_readByte (s : State) (w : Addr) (y : Addr) : (s.advance w).readByte y = s.readByte y := rfl
@[simp] theorem State.advance_readWord (s : State) (w : Addr) (y : Addr) : (s.advance w).readWord y = s.readWord y := rfl

@[simp] theorem State.setSp_a (s : State) (w : Addr) : (s.setSp w).a = s.a := rfl
@[simp] theorem State.setSp_b (s : State) (w : Addr) : (s.setSp w).b = s.b := rfl
@[simp] theorem State.setSp_pc (s : State) (w : Addr) : (s.setSp w).pc = s.pc := rfl
@[simp] theorem State.setSp_sp (s : State) (w : Addr) : (s.setSp w).sp = w := rfl
@[simp] theorem State.setSp_bp (s : State) (w : Addr) : (s.setSp w).bp = s.bp := rfl
@[simp] theorem State.setSp_flagZ (s : State) (w : Addr) : (s.setSp w).flagZ = s.flagZ := rfl
@[simp] theorem State.setSp_flagM (s : State) (w : Addr) : (s.setSp w).flagM = s.flagM := rfl
@[simp] theorem State.setSp_flagC (s : State) (w : Addr) : (s.setSp w).flagC = s.flagC := rfl
@[simp] theorem State.setSp_flagV (s : State) (w : Addr) : (s.setSp w).flagV = s.flagV := rfl
@[simp] theorem State.setSp_mem (s : State) (w : Addr) : (s.setSp w).mem = s.mem := rfl
@[simp] theorem State.setSp_console (s : State) (w : Addr) : (s.setSp w).console = s.console := rfl
@[simp] theorem State.setSp_readByte (s : State) (w : Addr) (y : Addr) : (s.setSp w).readByte y = s.readByte y := rfl
@[simp] theorem State.setSp_readWord (s : State) (w : Addr) (y : Addr) : (s.setSp w).readWord y = s.readWord y := rfl

@[simp] theorem State.setBp_a (s : State) (w : Addr) : (s.setBp w).a = s.a := rfl
@[simp] theorem State.setBp_b (s : State) (w : Addr) : (s.setBp w).b = s.b := rfl
@[simp] theorem State.setBp_pc (s : State) (w : Addr) : (s.setBp w).pc = s.pc := rfl
@[simp] theorem State.setBp_sp (s : State) (w : Addr) : (s.setBp w).sp = s.sp := rfl
@[simp] theorem State.setBp_bp (s : State) (w : Addr) : (s.setBp w).bp = w := rfl
@[simp] theorem State.setBp_flagZ (s : State) (w : Addr) : (s.setBp w).flagZ = s.flagZ := rfl
@[simp] theorem State.setBp_flagM (s : State) (w : Addr) : (s.setBp w).flagM = s.flagM := rfl
@[simp] theorem State.setBp_flagC (s : State) (w : Addr) : (s.setBp w).flagC = s.flagC := rfl
@[simp] theorem State.setBp_flagV (s : State) (w : Addr) : (s.setBp w).flagV = s.flagV := rfl
@[simp] theorem State.setBp_mem (s : State) (w : Addr) : (s.setBp w).mem = s.mem := rfl
@[simp] theorem State.setBp_console (s : State) (w : Addr) : (s.setBp w).console = s.console := rfl
@[simp] theorem State.setBp_readByte (s : State) (w : Addr) (y : Addr) : (s.setBp w).readByte y = s.readByte y := rfl
@[simp] theorem State.setBp_readWord (s : State) (w : Addr) (y : Addr) : (s.setBp w).readWord y = s.readWord y := rfl

@[simp] theorem State.setFlags_a (s : State) (x : AluResult) : (s.setFlags x).a = s.a := rfl
@[simp] theorem State.setFlags_b (s : State) (x : AluResult) : (s.setFlags x).b = s.b := rfl
@[simp] theorem State.setFlags_pc (s : State) (x : AluResult) : (s.setFlags x).pc = s.pc := rfl
@[simp] theorem State.setFlags_sp (s : State) (x : AluResult) : (s.setFlags x).sp = s.sp := rfl
@[simp] theorem State.setFlags_bp (s : State) (x : AluResult) : (s.setFlags x).bp = s.bp := rfl
@[simp] theorem State.setFlags_flagZ (s : State) (x : AluResult) : (s.setFlags x).flagZ = zeroFlag x.value := rfl
@[simp] theorem State.setFlags_flagM (s : State) (x : AluResult) : (s.setFlags x).flagM = minusFlag x.value := rfl
@[simp] theorem State.setFlags_flagC (s : State) (x : AluResult) : (s.setFlags x).flagC = x.carry := rfl
@[simp] theorem State.setFlags_flagV (s : State) (x : AluResult) : (s.setFlags x).flagV = x.overflow := rfl
@[simp] theorem State.setFlags_mem (s : State) (x : AluResult) : (s.setFlags x).mem = s.mem := rfl
@[simp] theorem State.setFlags_console (s : State) (x : AluResult) : (s.setFlags x).console = s.console := rfl
@[simp] theorem State.setFlags_readByte (s : State) (x : AluResult) (y : Addr) : (s.setFlags x).readByte y = s.readByte y := rfl
@[simp] theorem State.setFlags_readWord (s : State) (x : AluResult) (y : Addr) : (s.setFlags x).readWord y = s.readWord y := rfl

@[simp] theorem State.clearCV_a (s : State) : s.clearCV.a = s.a := rfl
@[simp] theorem State.clearCV_b (s : State) : s.clearCV.b = s.b := rfl
@[simp] theorem State.clearCV_pc (s : State) : s.clearCV.pc = s.pc := rfl
@[simp] theorem State.clearCV_sp (s : State) : s.clearCV.sp = s.sp := rfl
@[simp] theorem State.clearCV_bp (s : State) : s.clearCV.bp = s.bp := rfl
@[simp] theorem State.clearCV_flagZ (s : State) : s.clearCV.flagZ = s.flagZ := rfl
@[simp] theorem State.clearCV_flagM (s : State) : s.clearCV.flagM = s.flagM := rfl
@[simp] theorem State.clearCV_flagC (s : State) : s.clearCV.flagC = false := rfl
@[simp] theorem State.clearCV_flagV (s : State) : s.clearCV.flagV = false := rfl
@[simp] theorem State.clearCV_mem (s : State) : s.clearCV.mem = s.mem := rfl
@[simp] theorem State.clearCV_console (s : State) : s.clearCV.console = s.console := rfl
@[simp] theorem State.clearCV_readByte (s : State) (y : Addr) : s.clearCV.readByte y = s.readByte y := rfl
@[simp] theorem State.clearCV_readWord (s : State) (y : Addr) : s.clearCV.readWord y = s.readWord y := rfl

@[simp] theorem State.writeByte_a (s : State) (w : Addr) (v : Byte) : (s.writeByte w v).a = s.a := rfl
@[simp] theorem State.writeByte_b (s : State) (w : Addr) (v : Byte) : (s.writeByte w v).b = s.b := rfl
@[simp] theorem State.writeByte_pc (s : State) (w : Addr) (v : Byte) : (s.writeByte w v).pc = s.pc := rfl
@[simp] theorem State.writeByte_sp (s : State) (w : Addr) (v : Byte) : (s.writeByte w v).sp = s.sp := rfl
@[simp] theorem State.writeByte_bp (s : State) (w : Addr) (v : Byte) : (s.writeByte w v).bp = s.bp := rfl
@[simp] theorem State.writeByte_flagZ (s : State) (w : Addr) (v : Byte) : (s.writeByte w v).flagZ = s.flagZ := rfl
@[simp] theorem State.writeByte_flagM (s : State) (w : Addr) (v : Byte) : (s.writeByte w v).flagM = s.flagM := rfl
@[simp] theorem State.writeByte_flagC (s : State) (w : Addr) (v : Byte) : (s.writeByte w v).flagC = s.flagC := rfl
@[simp] theorem State.writeByte_flagV (s : State) (w : Addr) (v : Byte) : (s.writeByte w v).flagV = s.flagV := rfl
@[simp] theorem State.writeByte_mem (s : State) (w : Addr) (v : Byte) : (s.writeByte w v).mem = s.mem.write w.toNat v := rfl
@[simp] theorem State.writeByte_console (s : State) (w : Addr) (v : Byte) : (s.writeByte w v).console = s.console := rfl

@[simp] theorem State.writeWord_a (s : State) (w x : Addr) : (s.writeWord w x).a = s.a := rfl
@[simp] theorem State.writeWord_b (s : State) (w x : Addr) : (s.writeWord w x).b = s.b := rfl
@[simp] theorem State.writeWord_pc (s : State) (w x : Addr) : (s.writeWord w x).pc = s.pc := rfl
@[simp] theorem State.writeWord_sp (s : State) (w x : Addr) : (s.writeWord w x).sp = s.sp := rfl
@[simp] theorem State.writeWord_bp (s : State) (w x : Addr) : (s.writeWord w x).bp = s.bp := rfl
@[simp] theorem State.writeWord_flagZ (s : State) (w x : Addr) : (s.writeWord w x).flagZ = s.flagZ := rfl
@[simp] theorem State.writeWord_flagM (s : State) (w x : Addr) : (s.writeWord w x).flagM = s.flagM := rfl
@[simp] theorem State.writeWord_flagC (s : State) (w x : Addr) : (s.writeWord w x).flagC = s.flagC := rfl
@[simp] theorem State.writeWord_flagV (s : State) (w x : Addr) : (s.writeWord w x).flagV = s.flagV := rfl
@[simp] theorem State.writeWord_mem (s : State) (w x : Addr) : (s.writeWord w x).mem = (s.mem.write w.toNat (loByte x)).write (w + 1).toNat (hiByte x) := rfl
@[simp] theorem State.writeWord_console (s : State) (w x : Addr) : (s.writeWord w x).console = s.console := rfl

@[simp] theorem State.emit_a (s : State) (v : Byte) : (s.emit v).a = s.a := rfl
@[simp] theorem State.emit_b (s : State) (v : Byte) : (s.emit v).b = s.b := rfl
@[simp] theorem State.emit_pc (s : State) (v : Byte) : (s.emit v).pc = s.pc := rfl
@[simp] theorem State.emit_sp (s : State) (v : Byte) : (s.emit v).sp = s.sp := rfl
@[simp] theorem State.emit_bp (s : State) (v : Byte) : (s.emit v).bp = s.bp := rfl
@[simp] theorem State.emit_flagZ (s : State) (v : Byte) : (s.emit v).flagZ = s.flagZ := rfl
@[simp] theorem State.emit_flagM (s : State) (v : Byte) : (s.emit v).flagM = s.flagM := rfl
@[simp] theorem State.emit_flagC (s : State) (v : Byte) : (s.emit v).flagC = s.flagC := rfl
@[simp] theorem State.emit_flagV (s : State) (v : Byte) : (s.emit v).flagV = s.flagV := rfl
@[simp] theorem State.emit_mem (s : State) (v : Byte) : (s.emit v).mem = s.mem := rfl
@[simp] theorem State.emit_console (s : State) (v : Byte) : (s.emit v).console = s.console ++ [v] := rfl
@[simp] theorem State.emit_readByte (s : State) (v : Byte) (y : Addr) : (s.emit v).readByte y = s.readByte y := rfl
@[simp] theorem State.emit_readWord (s : State) (v : Byte) (y : Addr) : (s.emit v).readWord y = s.readWord y := rfl

@[simp] theorem State.aluToA_a (s : State) (x : AluResult) : (s.aluToA x).a = x.value := rfl
@[simp] theorem State.aluToA_b (s : State) (x : AluResult) : (s.aluToA x).b = s.b := rfl
@[simp] theorem State.aluToA_pc (s : State) (x : AluResult) : (s.aluToA x).pc = s.pc := rfl
@[simp] theorem State.aluToA_sp (s : State) (x : AluResult) : (s.aluToA x).sp = s.sp := rfl
@[simp] theorem State.aluToA_bp (s : State) (x : AluResult) : (s.aluToA x).bp = s.bp := rfl
@[simp] theorem State.aluToA_flagZ (s : State) (x : AluResult) : (s.aluToA x).flagZ = zeroFlag x.value := rfl
@[simp] theorem State.aluToA_flagM (s : State) (x : AluResult) : (s.aluToA x).flagM = minusFlag x.value := rfl
@[simp] theorem State.aluToA_flagC (s : State) (x : AluResult) : (s.aluToA x).flagC = x.carry := rfl
@[simp] theorem State.aluToA_flagV (s : State) (x : AluResult) : (s.aluToA x).flagV = x.overflow := rfl
@[simp] theorem State.aluToA_mem (s : State) (x : AluResult) : (s.aluToA x).mem = s.mem := rfl
@[simp] theorem State.aluToA_console (s : State) (x : AluResult) : (s.aluToA x).console = s.console := rfl
@[simp] theorem State.aluToA_readByte (s : State) (x : AluResult) (y : Addr) : (s.aluToA x).readByte y = s.readByte y := rfl
@[simp] theorem State.aluToA_readWord (s : State) (x : AluResult) (y : Addr) : (s.aluToA x).readWord y = s.readWord y := rfl

@[simp] theorem State.aluToB_a (s : State) (x : AluResult) : (s.aluToB x).a = s.a := rfl
@[simp] theorem State.aluToB_b (s : State) (x : AluResult) : (s.aluToB x).b = x.value := rfl
@[simp] theorem State.aluToB_pc (s : State) (x : AluResult) : (s.aluToB x).pc = s.pc := rfl
@[simp] theorem State.aluToB_sp (s : State) (x : AluResult) : (s.aluToB x).sp = s.sp := rfl
@[simp] theorem State.aluToB_bp (s : State) (x : AluResult) : (s.aluToB x).bp = s.bp := rfl
@[simp] theorem State.aluToB_flagZ (s : State) (x : AluResult) : (s.aluToB x).flagZ = zeroFlag x.value := rfl
@[simp] theorem State.aluToB_flagM (s : State) (x : AluResult) : (s.aluToB x).flagM = minusFlag x.value := rfl
@[simp] theorem State.aluToB_flagC (s : State) (x : AluResult) : (s.aluToB x).flagC = x.carry := rfl
@[simp] theorem State.aluToB_flagV (s : State) (x : AluResult) : (s.aluToB x).flagV = x.overflow := rfl
@[simp] theorem State.aluToB_mem (s : State) (x : AluResult) : (s.aluToB x).mem = s.mem := rfl
@[simp] theorem State.aluToB_console (s : State) (x : AluResult) : (s.aluToB x).console = s.console := rfl
@[simp] theorem State.aluToB_readByte (s : State) (x : AluResult) (y : Addr) : (s.aluToB x).readByte y = s.readByte y := rfl
@[simp] theorem State.aluToB_readWord (s : State) (x : AluResult) (y : Addr) : (s.aluToB x).readWord y = s.readWord y := rfl

@[simp] theorem State.jumpIf_a (s : State) (cond : Bool) (w : Addr) : (s.jumpIf cond w).a = s.a := by
  cases cond <;> rfl
@[simp] theorem State.jumpIf_b (s : State) (cond : Bool) (w : Addr) : (s.jumpIf cond w).b = s.b := by
  cases cond <;> rfl
theorem State.jumpIf_pc (s : State) (cond : Bool) (w : Addr) :
    (s.jumpIf cond w).pc = if cond then w else s.pc + 3 := by
  cases cond <;> rfl
@[simp] theorem State.jumpIf_sp (s : State) (cond : Bool) (w : Addr) : (s.jumpIf cond w).sp = s.sp := by
  cases cond <;> rfl
@[simp] theorem State.jumpIf_bp (s : State) (cond : Bool) (w : Addr) : (s.jumpIf cond w).bp = s.bp := by
  cases cond <;> rfl
@[simp] theorem State.jumpIf_flagZ (s : State) (cond : Bool) (w : Addr) : (s.jumpIf cond w).flagZ = s.flagZ := by
  cases cond <;> rfl
@[simp] theorem State.jumpIf_flagM (s : State) (cond : Bool) (w : Addr) : (s.jumpIf cond w).flagM = s.flagM := by
  cases cond <;> rfl
@[simp] theorem State.jumpIf_flagC (s : State) (cond : Bool) (w : Addr) : (s.jumpIf cond w).flagC = s.flagC := by
  cases cond <;> rfl
@[simp] theorem State.jumpIf_flagV (s : State) (cond : Bool) (w : Addr) : (s.jumpIf cond w).flagV = s.flagV := by
  cases cond <;> rfl
@[simp] theorem State.jumpIf_mem (s : State) (cond : Bool) (w : Addr) : (s.jumpIf cond w).mem = s.mem := by
  cases cond <;> rfl
@[simp] theorem State.jumpIf_console (s : State) (cond : Bool) (w : Addr) : (s.jumpIf cond w).console = s.console := by
  cases cond <;> rfl

end Sys2Proof.Machine
end

