-- ==== Sys2Proof/Laws/Ops.lean ====
section
/-! SUPPORT. What each shared operation can do, said once: the checks, the reads after writes, and the operand forms
with the parameters at the values the spec gives them. -/

namespace Sys2Proof.Machine

theorem inRange_iff (addr : Addr) : inRange addr = true ↔ addr.toNat ≤ Config.memTop := by
  simp [inRange]

@[simp] theorem State.checked_nil (s : State) (r : Result) : s.checked [] r = r := rfl

theorem State.checked_cons (s : State) (addr : Addr) (rest : List Addr) (r : Result) :
    s.checked (addr :: rest) r = if inRange addr then s.checked rest r else .fault (.accessOutOfRange s.pc addr) := rfl

/-- With every address implemented the checks answer `r`. -/
theorem State.checked_of_inRange (s : State) (addrs : List Addr) (r : Result) (h : ∀ x ∈ addrs, inRange x = true) :
    s.checked addrs r = r := by
  induction addrs with
  | nil => rfl
  | cons x rest ih =>
    rw [State.checked_cons, if_pos (h x (by simp)), ih (fun y hy => h y (by simp [hy]))]

/-- If a checked result is a next state, every address was implemented and that state is the result. -/
theorem State.checked_next (s : State) (addrs : List Addr) (r : Result) (t : State) (h : s.checked addrs r = .next t) :
    (∀ x ∈ addrs, inRange x = true) ∧ r = .next t := by
  induction addrs with
  | nil => exact ⟨by simp, h⟩
  | cons x rest ih =>
    rw [State.checked_cons] at h
    split at h
    · rename_i hx
      obtain ⟨h1, h2⟩ := ih h
      exact ⟨by simpa [hx] using h1, h2⟩
    · cases h

/-- A checked next state either is answered, or the fault names one of the addresses, above `MEM_TOP`, and PC. -/
theorem State.checked_cases (s : State) (addrs : List Addr) (t : State) :
    ((∀ x ∈ addrs, inRange x = true) ∧ s.checked addrs (.next t) = .next t) ∨
      ∃ x ∈ addrs, inRange x = false ∧ s.checked addrs (.next t) = .fault (.accessOutOfRange s.pc x) := by
  induction addrs with
  | nil => exact .inl ⟨by simp, rfl⟩
  | cons x rest ih =>
    rw [State.checked_cons]
    cases hx : inRange x
    · exact .inr ⟨x, by simp, hx, by simp⟩
    · rcases ih with ⟨h1, h2⟩ | ⟨y, hy, h1, h2⟩
      · exact .inl ⟨by simpa [hx] using h1, by simpa using h2⟩
      · exact .inr ⟨y, by simp [hy], h1, by simpa using h2⟩

theorem State.writeByte_readByte (s : State) (addr : Addr) (v : Byte) (x : Addr) :
    (s.writeByte addr v).readByte x = if x = addr then v else s.readByte x := by
  simp [State.readByte, Memory.read_write, BitVec.toNat_inj]

theorem State.writeWord_readByte (s : State) (addr w x : Addr) :
    (s.writeWord addr w).readByte x =
      if x = addr + 1 then hiByte w else if x = addr then loByte w else s.readByte x := by
  simp only [State.writeWord, State.writeByte_readByte]

/-- Two words written at consecutive addresses, as `CALL` writes them, read back byte by byte. -/
theorem State.writeFrame_readByte (s : State) (addr w v x : Addr) :
    ((s.writeWord addr w).writeWord (addr + 2) v).readByte x =
      if x = addr + 3 then hiByte v else if x = addr + 2 then loByte v else
      if x = addr + 1 then hiByte w else if x = addr then loByte w else s.readByte x := by
  have h : addr + 2 + 1 = addr + 3 := by bv_omega
  rw [State.writeWord_readByte, State.writeWord_readByte, h]

/-- Writing an implemented byte keeps the canonical form of memory. -/
theorem State.writeByte_wf (s : State) (addr : Addr) (v : Byte) (h : s.mem.wf = true) (ha : inRange addr = true) :
    (s.writeByte addr v).mem.wf = true :=
  Memory.write_wf _ _ _ h ((inRange_iff addr).mp ha)

/-- Writing a word to two implemented bytes keeps the canonical form of memory. -/
theorem State.writeWord_wf (s : State) (addr w : Addr) (h : s.mem.wf = true) (h0 : inRange addr = true)
    (h1 : inRange (addr + 1) = true) : (s.writeWord addr w).mem.wf = true :=
  State.writeByte_wf _ _ _ (State.writeByte_wf s _ _ h h0) h1

/-- The offset in B is unsigned (41_memory_ops.md R100). -/
theorem State.indexed_eq (s : State) (base : Addr) : s.indexed base = base + zext16 s.b := rfl

/-- A zero-page pointer is two consecutive bytes, low byte first, without wrap (20_memory.md R47). -/
theorem State.zpPointer_eq (s : State) (zp : Byte) :
    s.zpPointer zp = joinBytes (s.readByte (zext16 zp + 1)) (s.readByte (zext16 zp)) := rfl

theorem State.zpIndexed_eq (s : State) (zp : Byte) :
    s.zpIndexed zp = joinBytes (s.readByte (zext16 zp + 1)) (s.readByte (zext16 zp)) + zext16 s.b := rfl

theorem State.zpAddrs_eq (s : State) (zp : Byte) :
    s.zpAddrs zp = [zext16 zp, zext16 zp + 1, s.zpIndexed zp] := rfl

/-- The two bytes of a zero-page pointer are always implemented (41_memory_ops.md R110). -/
theorem inRange_zeroPage (zp : Byte) : inRange (zext16 zp) = true ∧ inRange (zext16 zp + 1) = true := by
  have h := zp.isLt
  have h1 : (1 : Addr).toNat = 1 := rfl
  constructor
  · rw [inRange_iff, toNat_zext16, Config.memTop]; omega
  · rw [inRange_iff, BitVec.toNat_add, toNat_zext16, Config.memTop, h1]; omega

/-- `RET` finds its frame from BP (42_stack_ops.md R129). -/
theorem State.retBase_eq (s : State) : s.retBase = s.bp - 3 := rfl

/-- Additions take no carry-in (43_alu_ops.md R140). -/
theorem State.aluAdd_eq (s : State) (x y : Byte) : s.aluAdd x y = add8 false x y := rfl

/-- Subtractions take no borrow-in, and C is the borrow (43_alu_ops.md R140). -/
theorem State.aluSub_eq (s : State) (x y : Byte) : s.aluSub x y = sub8 true false x y := rfl

end Sys2Proof.Machine
end

