-- ==== Sys2Proof/Laws/Fetch.lean ====
section
/-! SUPPORT. What a fetch and a step can do, said once. -/

namespace Sys2Proof.Machine

theorem firstOutOfRange_none (addrs : List Addr) : firstOutOfRange addrs = none ↔ ∀ x ∈ addrs, inRange x = true := by
  simp [firstOutOfRange]

theorem firstOutOfRange_some {addrs : List Addr} {x : Addr} (h : firstOutOfRange addrs = some x) :
    x ∈ addrs ∧ inRange x = false := by
  have h1 := List.find?_some h
  exact ⟨List.mem_of_find?_eq_some h, by simpa using h1⟩

/-- The checks say which fault they raise: that of the first address above `MEM_TOP`. -/
theorem State.checked_eq_first (s : State) (addrs : List Addr) (t : State) :
    s.checked addrs (.next t) =
      match firstOutOfRange addrs with
      | none => .next t
      | some x => .fault (.accessOutOfRange s.pc x) := by
  induction addrs with
  | nil => rfl
  | cons x rest ih =>
    rw [State.checked_cons, ih]
    cases hx : inRange x <;> simp [firstOutOfRange, hx]

/-- The operand bytes that a form needs are enough to decode it. -/
theorem decode_of_form (op : Byte) (form : Form) (bytes : List Byte) (h : opcodeForm op = some form)
    (hb : bytes.length = form.format.length - 1) : ∃ i, decode (op :: bytes) = .ok (i, []) := by
  cases form with
  | f1 i =>
    have : bytes = [] := List.eq_nil_of_length_eq_zero hb
    subst this
    exact ⟨i, by simp [decode, h]⟩
  | f2i make =>
    obtain ⟨x, rfl⟩ := List.length_eq_one_iff.mp hb
    exact ⟨make x, by simp [decode, h]⟩
  | f2z make =>
    obtain ⟨x, rfl⟩ := List.length_eq_one_iff.mp hb
    exact ⟨make x, by simp [decode, h]⟩
  | f3 make =>
    obtain ⟨x, y, rfl⟩ := List.length_eq_two.mp hb
    exact ⟨make (orderPair Config.operandLowFirst x y), by simp [decode, h]⟩

/-- What a fetched instruction says of the state: PC and the operand bytes are implemented, and those bytes decode to
it with nothing left over. -/
theorem State.fetch_ok {s : State} {i : Instr} (h : s.fetch = .ok i) :
    inRange s.pc = true ∧ ∃ form, opcodeForm (s.readByte s.pc) = some form ∧
      (∀ x ∈ operandAddrs s.pc (form.format.length - 1), inRange x = true) ∧
      decode (s.readByte s.pc :: (operandAddrs s.pc (form.format.length - 1)).map s.readByte) = .ok (i, []) := by
  unfold State.fetch at h
  split at h
  · rename_i hpc
    split at h
    · cases h
    · rename_i form hform
      split at h
      · cases h
      · rename_i hnone
        obtain ⟨j, hj⟩ := decode_of_form _ form ((operandAddrs s.pc (form.format.length - 1)).map s.readByte) hform
          (by simp [operandAddrs])
        rw [hj] at h
        simp only [Except.ok.injEq] at h
        subst h
        exact ⟨hpc, form, hform, (firstOutOfRange_none _).mp hnone, hj⟩
  · cases h

/-- Why a fetch faults. -/
theorem State.fetch_error {s : State} {f : Fault} (h : s.fetch = .error f) :
    (inRange s.pc = false ∧ f = .accessOutOfRange s.pc s.pc) ∨
    (inRange s.pc = true ∧ opcodeForm (s.readByte s.pc) = none ∧ f = .illegalOpcode s.pc (s.readByte s.pc)) ∨
    (inRange s.pc = true ∧ ∃ form x, opcodeForm (s.readByte s.pc) = some form ∧
      firstOutOfRange (operandAddrs s.pc (form.format.length - 1)) = some x ∧ f = .accessOutOfRange s.pc x) := by
  unfold State.fetch at h
  split at h
  · rename_i hpc
    split at h
    · rename_i hform
      exact .inr (.inl ⟨hpc, hform, by cases h; rfl⟩)
    · rename_i form hform
      split at h
      · rename_i x hx
        exact .inr (.inr ⟨hpc, form, x, hform, hx, by cases h; rfl⟩)
      · obtain ⟨j, hj⟩ := decode_of_form _ form ((operandAddrs s.pc (form.format.length - 1)).map s.readByte) hform
          (by simp [operandAddrs])
        rw [hj] at h
        cases h
  · rename_i hpc
    exact .inl ⟨by simpa using hpc, by cases h; rfl⟩

/-- A step that answers a next state ran a fetched instruction. -/
theorem step_next {s t : State} (h : step s = .next t) : ∃ i, s.fetch = .ok i ∧ exec i s = .next t := by
  unfold step at h
  split at h
  · rename_i i hi
    exact ⟨i, hi, h⟩
  · cases h

end Sys2Proof.Machine
end

