-- ==== Sys2Proof/Laws/Footprint.lean ====
section
/-! SUPPORT. The shape every meaning has: its data addresses are checked, reads before writes, and only then does it
answer its next state. -/

namespace Sys2Proof.Machine

/-- Every instruction is one checked next state over its footprint, so it is never refused and its only fault is that
of the check. -/
theorem exec_eq_checked (i : Instr) (s : State) :
    ∃ t, exec i s = s.checked (dataReads i s ++ dataWrites i s) (.next t) := by
  cases i <;> exact ⟨_, rfl⟩

end Sys2Proof.Machine
end

