-- ==== Sys2Proof/Laws/PerInstr.lean ====
section
/-! SUPPORT. Two families of lemmas, one lemma per instruction: its spelling is one of its mnemonic's forms
(30_encoding.md R86), and its encoding has the length the opcode table gives it (30_encoding.md R75). -/

namespace Sys2Proof.Laws

/-- The instruction is written in a form that has an opcode. -/
def SpellingForm.Statement (i : Instr) : Prop := i.wellFormed = true

/-- The encoding begins with a defined opcode and is as long as that opcode's format says. -/
def EncodedLength.Statement (i : Instr) : Prop :=
  ∃ op form, (encode i).head? = some op ∧ opcodeForm op = some form ∧ (encode i).length = form.format.length

theorem SpellingForm.movArMem (addr : Addr) : SpellingForm.Statement (.movArMem addr) := rfl
theorem SpellingForm.movBrMem (addr : Addr) : SpellingForm.Statement (.movBrMem addr) := rfl
theorem SpellingForm.movArImm (imm : Byte) : SpellingForm.Statement (.movArImm imm) := rfl
theorem SpellingForm.movBrImm (imm : Byte) : SpellingForm.Statement (.movBrImm imm) := rfl
theorem SpellingForm.movMemAr (addr : Addr) : SpellingForm.Statement (.movMemAr addr) := rfl
theorem SpellingForm.movMemBr (addr : Addr) : SpellingForm.Statement (.movMemBr addr) := rfl
theorem SpellingForm.swp : SpellingForm.Statement .swp := rfl
theorem SpellingForm.ldo (addr : Addr) : SpellingForm.Statement (.ldo addr) := rfl
theorem SpellingForm.sto (addr : Addr) : SpellingForm.Statement (.sto addr) := rfl
theorem SpellingForm.ldzAr : SpellingForm.Statement .ldzAr := rfl
theorem SpellingForm.ldzZp (zp : Byte) : SpellingForm.Statement (.ldzZp zp) := rfl
theorem SpellingForm.stzZp (zp : Byte) : SpellingForm.Statement (.stzZp zp) := rfl
theorem SpellingForm.ioAr : SpellingForm.Statement .ioAr := rfl
theorem SpellingForm.ioBr : SpellingForm.Statement .ioBr := rfl
theorem SpellingForm.pushAr : SpellingForm.Statement .pushAr := rfl
theorem SpellingForm.pushImm (imm : Byte) : SpellingForm.Statement (.pushImm imm) := rfl
theorem SpellingForm.pop : SpellingForm.Statement .pop := rfl
theorem SpellingForm.peekBr : SpellingForm.Statement .peekBr := rfl
theorem SpellingForm.peekImm (imm : Byte) : SpellingForm.Statement (.peekImm imm) := rfl
theorem SpellingForm.pokeBr : SpellingForm.Statement .pokeBr := rfl
theorem SpellingForm.pokeImm (imm : Byte) : SpellingForm.Statement (.pokeImm imm) := rfl
theorem SpellingForm.call (addr : Addr) : SpellingForm.Statement (.call addr) := rfl
theorem SpellingForm.ret : SpellingForm.Statement .ret := rfl
theorem SpellingForm.addImm (imm : Byte) : SpellingForm.Statement (.addImm imm) := rfl
theorem SpellingForm.addBr : SpellingForm.Statement .addBr := rfl
theorem SpellingForm.subImm (imm : Byte) : SpellingForm.Statement (.subImm imm) := rfl
theorem SpellingForm.subBr : SpellingForm.Statement .subBr := rfl
theorem SpellingForm.clc : SpellingForm.Statement .clc := rfl
theorem SpellingForm.shl : SpellingForm.Statement .shl := rfl
theorem SpellingForm.shr : SpellingForm.Statement .shr := rfl
theorem SpellingForm.incAr : SpellingForm.Statement .incAr := rfl
theorem SpellingForm.incBr : SpellingForm.Statement .incBr := rfl
theorem SpellingForm.decAr : SpellingForm.Statement .decAr := rfl
theorem SpellingForm.decBr : SpellingForm.Statement .decBr := rfl
theorem SpellingForm.andBr : SpellingForm.Statement .andBr := rfl
theorem SpellingForm.andImm (imm : Byte) : SpellingForm.Statement (.andImm imm) := rfl
theorem SpellingForm.orBr : SpellingForm.Statement .orBr := rfl
theorem SpellingForm.orImm (imm : Byte) : SpellingForm.Statement (.orImm imm) := rfl
theorem SpellingForm.xorBr : SpellingForm.Statement .xorBr := rfl
theorem SpellingForm.xorImm (imm : Byte) : SpellingForm.Statement (.xorImm imm) := rfl
theorem SpellingForm.notA : SpellingForm.Statement .notA := rfl
theorem SpellingForm.jmp (addr : Addr) : SpellingForm.Statement (.jmp addr) := rfl
theorem SpellingForm.jz (addr : Addr) : SpellingForm.Statement (.jz addr) := rfl
theorem SpellingForm.jnz (addr : Addr) : SpellingForm.Statement (.jnz addr) := rfl
theorem SpellingForm.jm (addr : Addr) : SpellingForm.Statement (.jm addr) := rfl
theorem SpellingForm.jp (addr : Addr) : SpellingForm.Statement (.jp addr) := rfl
theorem SpellingForm.jc (addr : Addr) : SpellingForm.Statement (.jc addr) := rfl
theorem SpellingForm.jnc (addr : Addr) : SpellingForm.Statement (.jnc addr) := rfl
theorem SpellingForm.jof (addr : Addr) : SpellingForm.Statement (.jof addr) := rfl
theorem SpellingForm.jnof (addr : Addr) : SpellingForm.Statement (.jnof addr) := rfl

theorem EncodedLength.movArMem (addr : Addr) : EncodedLength.Statement (.movArMem addr) := ⟨0x01, _, rfl, rfl, rfl⟩
theorem EncodedLength.movBrMem (addr : Addr) : EncodedLength.Statement (.movBrMem addr) := ⟨0x02, _, rfl, rfl, rfl⟩
theorem EncodedLength.movArImm (imm : Byte) : EncodedLength.Statement (.movArImm imm) := ⟨0x03, _, rfl, rfl, rfl⟩
theorem EncodedLength.movBrImm (imm : Byte) : EncodedLength.Statement (.movBrImm imm) := ⟨0x04, _, rfl, rfl, rfl⟩
theorem EncodedLength.movMemAr (addr : Addr) : EncodedLength.Statement (.movMemAr addr) := ⟨0x05, _, rfl, rfl, rfl⟩
theorem EncodedLength.movMemBr (addr : Addr) : EncodedLength.Statement (.movMemBr addr) := ⟨0x06, _, rfl, rfl, rfl⟩
theorem EncodedLength.swp : EncodedLength.Statement .swp := ⟨0x07, _, rfl, rfl, rfl⟩
theorem EncodedLength.ldo (addr : Addr) : EncodedLength.Statement (.ldo addr) := ⟨0x08, _, rfl, rfl, rfl⟩
theorem EncodedLength.sto (addr : Addr) : EncodedLength.Statement (.sto addr) := ⟨0x09, _, rfl, rfl, rfl⟩
theorem EncodedLength.ldzAr : EncodedLength.Statement .ldzAr := ⟨0x0C, _, rfl, rfl, rfl⟩
theorem EncodedLength.ldzZp (zp : Byte) : EncodedLength.Statement (.ldzZp zp) := ⟨0x0A, _, rfl, rfl, rfl⟩
theorem EncodedLength.stzZp (zp : Byte) : EncodedLength.Statement (.stzZp zp) := ⟨0x0B, _, rfl, rfl, rfl⟩
theorem EncodedLength.ioAr : EncodedLength.Statement .ioAr := ⟨0x31, _, rfl, rfl, rfl⟩
theorem EncodedLength.ioBr : EncodedLength.Statement .ioBr := ⟨0x32, _, rfl, rfl, rfl⟩
theorem EncodedLength.pushAr : EncodedLength.Statement .pushAr := ⟨0x8B, _, rfl, rfl, rfl⟩
theorem EncodedLength.pushImm (imm : Byte) : EncodedLength.Statement (.pushImm imm) := ⟨0x87, _, rfl, rfl, rfl⟩
theorem EncodedLength.pop : EncodedLength.Statement .pop := ⟨0x8A, _, rfl, rfl, rfl⟩
theorem EncodedLength.peekBr : EncodedLength.Statement .peekBr := ⟨0x8E, _, rfl, rfl, rfl⟩
theorem EncodedLength.peekImm (imm : Byte) : EncodedLength.Statement (.peekImm imm) := ⟨0x88, _, rfl, rfl, rfl⟩
theorem EncodedLength.pokeBr : EncodedLength.Statement .pokeBr := ⟨0x8C, _, rfl, rfl, rfl⟩
theorem EncodedLength.pokeImm (imm : Byte) : EncodedLength.Statement (.pokeImm imm) := ⟨0x89, _, rfl, rfl, rfl⟩
theorem EncodedLength.call (addr : Addr) : EncodedLength.Statement (.call addr) := ⟨0x85, _, rfl, rfl, rfl⟩
theorem EncodedLength.ret : EncodedLength.Statement .ret := ⟨0x86, _, rfl, rfl, rfl⟩
theorem EncodedLength.addImm (imm : Byte) : EncodedLength.Statement (.addImm imm) := ⟨0x13, _, rfl, rfl, rfl⟩
theorem EncodedLength.addBr : EncodedLength.Statement .addBr := ⟨0x14, _, rfl, rfl, rfl⟩
theorem EncodedLength.subImm (imm : Byte) : EncodedLength.Statement (.subImm imm) := ⟨0x43, _, rfl, rfl, rfl⟩
theorem EncodedLength.subBr : EncodedLength.Statement .subBr := ⟨0x44, _, rfl, rfl, rfl⟩
theorem EncodedLength.clc : EncodedLength.Statement .clc := ⟨0x15, _, rfl, rfl, rfl⟩
theorem EncodedLength.shl : EncodedLength.Statement .shl := ⟨0x28, _, rfl, rfl, rfl⟩
theorem EncodedLength.shr : EncodedLength.Statement .shr := ⟨0x29, _, rfl, rfl, rfl⟩
theorem EncodedLength.incAr : EncodedLength.Statement .incAr := ⟨0x2C, _, rfl, rfl, rfl⟩
theorem EncodedLength.incBr : EncodedLength.Statement .incBr := ⟨0x2D, _, rfl, rfl, rfl⟩
theorem EncodedLength.decAr : EncodedLength.Statement .decAr := ⟨0x2A, _, rfl, rfl, rfl⟩
theorem EncodedLength.decBr : EncodedLength.Statement .decBr := ⟨0x2B, _, rfl, rfl, rfl⟩
theorem EncodedLength.andBr : EncodedLength.Statement .andBr := ⟨0x21, _, rfl, rfl, rfl⟩
theorem EncodedLength.andImm (imm : Byte) : EncodedLength.Statement (.andImm imm) := ⟨0x25, _, rfl, rfl, rfl⟩
theorem EncodedLength.orBr : EncodedLength.Statement .orBr := ⟨0x22, _, rfl, rfl, rfl⟩
theorem EncodedLength.orImm (imm : Byte) : EncodedLength.Statement (.orImm imm) := ⟨0x26, _, rfl, rfl, rfl⟩
theorem EncodedLength.xorBr : EncodedLength.Statement .xorBr := ⟨0x23, _, rfl, rfl, rfl⟩
theorem EncodedLength.xorImm (imm : Byte) : EncodedLength.Statement (.xorImm imm) := ⟨0x27, _, rfl, rfl, rfl⟩
theorem EncodedLength.notA : EncodedLength.Statement .notA := ⟨0x24, _, rfl, rfl, rfl⟩
theorem EncodedLength.jmp (addr : Addr) : EncodedLength.Statement (.jmp addr) := ⟨0x81, _, rfl, rfl, rfl⟩
theorem EncodedLength.jz (addr : Addr) : EncodedLength.Statement (.jz addr) := ⟨0x91, _, rfl, rfl, rfl⟩
theorem EncodedLength.jnz (addr : Addr) : EncodedLength.Statement (.jnz addr) := ⟨0xA1, _, rfl, rfl, rfl⟩
theorem EncodedLength.jm (addr : Addr) : EncodedLength.Statement (.jm addr) := ⟨0xB1, _, rfl, rfl, rfl⟩
theorem EncodedLength.jp (addr : Addr) : EncodedLength.Statement (.jp addr) := ⟨0xC1, _, rfl, rfl, rfl⟩
theorem EncodedLength.jc (addr : Addr) : EncodedLength.Statement (.jc addr) := ⟨0xD1, _, rfl, rfl, rfl⟩
theorem EncodedLength.jnc (addr : Addr) : EncodedLength.Statement (.jnc addr) := ⟨0xE1, _, rfl, rfl, rfl⟩
theorem EncodedLength.jof (addr : Addr) : EncodedLength.Statement (.jof addr) := ⟨0xD2, _, rfl, rfl, rfl⟩
theorem EncodedLength.jnof (addr : Addr) : EncodedLength.Statement (.jnof addr) := ⟨0xE2, _, rfl, rfl, rfl⟩

end Sys2Proof.Laws
end

