-- ==== Sys2Proof/Tests/Slice0.lean ====
section
/-! SUPPORT. Tests, and a witness for every statement that has hypotheses. Every expected value is from
95_test_vectors.md (a row is named M<n> or S<n> as there), from the table of 30_encoding.md R75, or worked out by hand
from the rule that is cited; none is the model's own answer. -/

namespace Sys2Proof.Tests

open Sys2Proof.Machine

/-! ## Helpers -/

/-- A state to start from: PC, SP and BP as in most rows of 95_test_vectors.md section 2, nothing in memory. -/
def sample : State :=
  { a := 0, b := 0, pc := 0x0200, sp := 0x0E00, bp := 0x0E05, flagZ := false, flagM := false, flagC := false,
    flagV := false, mem := [], console := [] }

/-- The state with bytes stored from an address on. -/
def holding (s : State) (at_ : Nat) (bytes : List Byte) : State :=
  { s with mem := (cellsFrom at_ bytes).foldl (fun m cell => m.write cell.1 cell.2) s.mem }

/-- One step of the state with an instruction's bytes stored at PC. -/
def stepWith (bytes : List Byte) (s : State) : Result := step (holding s s.pc.toNat bytes)

/-- What a next state shows of itself. -/
def seen {α : Type} (show_ : State → α) : Result → Option α
  | .next t => some (show_ t)
  | .fault _ => none
  | .refused _ => none

/-- The fault of a result. -/
def faultOf : Result → Option Fault
  | .next _ => none
  | .fault f => some f
  | .refused _ => none

/-- Flags in the order Z, M, C, V. -/
def flagsOf (t : State) : List Bool := [t.flagZ, t.flagM, t.flagC, t.flagV]

/-- The instruction a list of bytes decodes to when nothing is left over. -/
def decoded (bytes : List Byte) : Option Instr :=
  match decode bytes with
  | .ok (i, []) => some i
  | .ok (_, _ :: _) => none
  | .error _ => none

/-- Whether the decoder rejects these bytes by naming their first one. -/
def rejected (op : Byte) : Bool :=
  match decode [op] with
  | .error e => decide (e = .illegalOpcode op)
  | .ok _ => false

/-! ## Well-formedness: an ill-formed term for each check -/

/-- A spelling without an opcode is ill formed, one per mnemonic and more (30_encoding.md R86). -/
def illFormed : List SourceInstr :=
  [⟨.push, [.br]⟩,
   ⟨.pop, [.br]⟩,
   ⟨.add, [.ar]⟩,
   ⟨.sub, [.ar]⟩,
   ⟨.shl, [.br]⟩,
   ⟨.shr, [.br]⟩,
   ⟨.notA, [.br]⟩,
   ⟨.stz, [.ar]⟩,
   ⟨.ldz, [.br]⟩,
   ⟨.peek, [.ar]⟩,
   ⟨.poke, [.ar]⟩,
   ⟨.io, [.immed 0x41]⟩,
   ⟨.ldo, [.ar, .mem 0x0A00]⟩,
   ⟨.mov, [.ar, .br]⟩,
   ⟨.mov, [.mem 0x0A00, .mem 0x0B00]⟩,
   ⟨.mov, []⟩,
   ⟨.mov, [.immed 0x01, .ar]⟩,
   ⟨.jmp, [.immed 0x10]⟩,
   ⟨.jz, []⟩,
   ⟨.call, [.zeroPage 0x20]⟩,
   ⟨.ret, [.mem 0x0100]⟩,
   ⟨.clc, [.ar]⟩,
   ⟨.swp, [.ar, .br]⟩,
   ⟨.and, [.ar]⟩,
   ⟨.or, [.mem 0x0A00]⟩,
   ⟨.xor, [.zeroPage 0x01]⟩,
   ⟨.inc, [.immed 0x01]⟩,
   ⟨.dec, [.mem 0x0A00]⟩,
   ⟨.sto, []⟩,
   ⟨.jnz, [.ar]⟩,
   ⟨.jm, [.zeroPage 0x01]⟩,
   ⟨.jp, [.mem 0x0100, .mem 0x0200]⟩,
   ⟨.jc, [.immed 0x01]⟩,
   ⟨.jnc, [.br]⟩,
   ⟨.jof, []⟩,
   ⟨.jnof, [.immed 0x01]⟩]

/-- 30_encoding.md R86: the check refuses every ill-formed spelling. -/
theorem test_ill_formed_spellings_refused : illFormed.all (fun src => !src.wellFormed) = true := by decide

/-- 30_encoding.md R86: the assembler has no instruction for any of them. -/
theorem test_ill_formed_spellings_not_assembled : illFormed.all (fun src => (assemble src).isNone) = true := by decide

/-- The canonical form of memory refuses an address listed twice, addresses that fall, an entry equal to what an
unlisted address reads as, and an address above 0x3FFF. -/
theorem test_memory_form_refuses :
    Memory.wf [(5, 1), (5, 2)] = false ∧ Memory.wf [(6, 1), (5, 2)] = false ∧ Memory.wf [(5, 0)] = false ∧
    Memory.wf [(0x4000, 1)] = false ∧ Memory.wf [(5, 1), (0x3FFF, 2)] = true := by decide

/-- Writing what an unlisted address reads as removes the entry. -/
theorem test_write_of_default_removes : Memory.write [(5, 1), (7, 2)] 5 0 = [(7, 2)] := by decide

/-! ## Decoding: words written out from the table of 30_encoding.md R75, the class nibble first -/

/-- Every row of the memory family, an immediate or zero-page byte 0xA5 and an address 0x1234 stored low byte first (decision D4). -/
theorem test_decode_memory_family :
    [[0b00000001, 0x34, 0x12], [0b00000010, 0x34, 0x12], [0b00000011, 0xA5], [0b00000100, 0xA5], [0b00000101, 0x34, 0x12], [0b00000110, 0x34, 0x12], [0b00000111], [0b00001000, 0x34, 0x12], [0b00001001, 0x34, 0x12], [0b00001100], [0b00001010, 0xA5], [0b00001011, 0xA5], [0b00110001], [0b00110010]].map decoded =
    [some (.movArMem 0x1234), some (.movBrMem 0x1234), some (.movArImm 0xA5), some (.movBrImm 0xA5), some (.movMemAr 0x1234), some (.movMemBr 0x1234), some .swp, some (.ldo 0x1234), some (.sto 0x1234), some .ldzAr, some (.ldzZp 0xA5), some (.stzZp 0xA5), some .ioAr, some .ioBr] := by decide

/-- Every row of the stack family, an immediate or zero-page byte 0xA5 and an address 0x1234 stored low byte first (decision D4). -/
theorem test_decode_stack_family :
    [[0b10001011], [0b10000111, 0xA5], [0b10001010], [0b10001110], [0b10001000, 0xA5], [0b10001100], [0b10001001, 0xA5], [0b10000101, 0x34, 0x12], [0b10000110]].map decoded =
    [some .pushAr, some (.pushImm 0xA5), some .pop, some .peekBr, some (.peekImm 0xA5), some .pokeBr, some (.pokeImm 0xA5), some (.call 0x1234), some .ret] := by decide

/-- Every row of the alu family, an immediate or zero-page byte 0xA5 and an address 0x1234 stored low byte first (decision D4). -/
theorem test_decode_alu_family :
    [[0b00010011, 0xA5], [0b00010100], [0b01000011, 0xA5], [0b01000100], [0b00010101], [0b00101000], [0b00101001], [0b00101100], [0b00101101], [0b00101010], [0b00101011], [0b00100001], [0b00100101, 0xA5], [0b00100010], [0b00100110, 0xA5], [0b00100011], [0b00100111, 0xA5], [0b00100100]].map decoded =
    [some (.addImm 0xA5), some .addBr, some (.subImm 0xA5), some .subBr, some .clc, some .shl, some .shr, some .incAr, some .incBr, some .decAr, some .decBr, some .andBr, some (.andImm 0xA5), some .orBr, some (.orImm 0xA5), some .xorBr, some (.xorImm 0xA5), some .notA] := by decide

/-- Every row of the flow family, an immediate or zero-page byte 0xA5 and an address 0x1234 stored low byte first (decision D4). -/
theorem test_decode_flow_family :
    [[0b10000001, 0x34, 0x12], [0b10010001, 0x34, 0x12], [0b10100001, 0x34, 0x12], [0b10110001, 0x34, 0x12], [0b11000001, 0x34, 0x12], [0b11010001, 0x34, 0x12], [0b11100001, 0x34, 0x12], [0b11010010, 0x34, 0x12], [0b11100010, 0x34, 0x12]].map decoded =
    [some (.jmp 0x1234), some (.jz 0x1234), some (.jnz 0x1234), some (.jm 0x1234), some (.jp 0x1234), some (.jc 0x1234), some (.jnc 0x1234), some (.jof 0x1234), some (.jnof 0x1234)] := by decide

/-- 95_test_vectors.md section 2.5: byte 0 alone selects the instruction, so a byte after it is data. -/
theorem test_second_byte_is_data :
    decode [0x13, 0x23, 0x07] = .ok (.addImm 0x23, [0x07]) := by rfl

/-- 95_test_vectors.md section 2.5: undefined opcode bytes are rejected by name. -/
theorem test_undefined_opcodes_rejected :
    [0x00, 0x0D, 0x2E, 0x33, 0x50, 0x80, 0x8D, 0x92, 0xD3, 0xE3, 0xFF].all rejected = true := by decide

/-- The table numbers bits from the first byte's least significant one; bits above `nbits` are 0. -/
theorem test_table_words :
    decodeTableWord 8 0x07 = some .swp ∧ decodeTableWord 24 0x123485 = some (.call 0x1234) ∧
    decodeTableWord 16 0xFF88 = some (.peekImm 0xFF) ∧ decodeTableWord 8 0x123481 = some (.jmp 0x0000) ∧
    decodeTableWord 8 0x00 = none := by decide

/-- The planted word is what the next step runs, from reset: `MOV Ar #0x2A`. -/
theorem test_planted_word_runs :
    seen (fun t => (t.a, t.pc)) (step (State.reset.withFetchWord 16 0x2A03)) = some (0x2A, 0x0102) := by decide

/-! ## One step of each instruction -/

/-- Row M1. -/
theorem test_mov_ar_mem :
    seen (fun t => (t.a, t.b, t.pc)) (stepWith [0x01, 0x00, 0x0A] (holding sample 0x0A00 [0x48])) = some (0x48, 0, 0x0203) := by decide

/-- Row M18. -/
theorem test_mov_ar_mem_above_top :
    faultOf (stepWith [0x01, 0x00, 0x40] sample) = some (.accessOutOfRange 0x0200 0x4000) := by decide

/-- Row M2. -/
theorem test_mov_br_mem_at_top :
    seen (fun t => (t.a, t.b, t.pc)) (stepWith [0x02, 0xFF, 0x3F] (holding sample 0x3FFF [0x7E])) = some (0, 0x7E, 0x0203) := by decide

/-- Row M3: loading 0 does not set Z. -/
theorem test_mov_ar_imm_keeps_flags :
    seen (fun t => (t.a, flagsOf t, t.pc)) (stepWith [0x03, 0x00] { sample with a := 0x55, flagM := true, flagV := true }) = some (0x00, [false, true, false, true], 0x0202) := by decide

/-- Row M4. -/
theorem test_mov_br_imm :
    seen (fun t => (t.a, t.b, t.pc)) (stepWith [0x04, 0xFF] sample) = some (0, 0xFF, 0x0202) := by decide

/-- Row M5. -/
theorem test_mov_mem_ar :
    seen (fun t => (t.mem.read 0x2000, t.mem.read 0x2001, t.pc)) (stepWith [0x05, 0x00, 0x20] { sample with a := 0x41, b := 0x99 }) = some (0x41, 0, 0x0203) := by decide

/-- Row M6. -/
theorem test_mov_mem_br_into_character_rom :
    seen (fun t => (t.mem.read 0x1000, t.pc)) (stepWith [0x06, 0x00, 0x10] { sample with a := 0x99, b := 0x07 }) = some (0x07, 0x0203) := by decide

/-- Row M7. -/
theorem test_swp :
    seen (fun t => (t.a, t.b, t.pc)) (stepWith [0x07] { sample with a := 0x12, b := 0x34 }) = some (0x34, 0x12, 0x0201) := by decide

/-- Row M10 (decision D7). -/
theorem test_ldo_offset_unsigned :
    seen (fun t => (t.a, t.pc)) (stepWith [0x08, 0x00, 0x0A] (holding (holding { sample with b := 0x80 } 0x0A80 [0x22]) 0x0980 [0x33])) = some (0x22, 0x0203) := by decide

/-- Row M19. -/
theorem test_ldo_sum_above_top :
    faultOf (stepWith [0x08, 0x01, 0x3F] { sample with b := 0xFF }) = some (.accessOutOfRange 0x0200 0x4000) := by decide

/-- Row M11. -/
theorem test_sto :
    seen (fun t => (t.mem.read 0x2003, t.mem.read 0x2000, t.pc)) (stepWith [0x09, 0x00, 0x20] { sample with a := 0x58, b := 0x03 }) = some (0x58, 0, 0x0203) := by decide

/-- 20_memory.md R53 (decision D8): 0xFFFF + 0x02 wraps to 0x0001. -/
theorem test_sto_wraps :
    seen (fun t => t.mem.read 0x0001) (stepWith [0x09, 0xFF, 0xFF] { sample with a := 0x58, b := 0x02 }) = some 0x58 := by decide

/-- Row M12 (decision D5). -/
theorem test_ldz_ar :
    seen (fun t => (t.a, t.pc)) (stepWith [0x0C] (holding (holding { sample with a := 0x10, b := 0x01 } 0x0010 [0x00, 0x0A]) 0x0A01 [0x45])) = some (0x45, 0x0201) := by decide

/-- Row M13 (decision D5). -/
theorem test_ldz_zp :
    seen (fun t => (t.a, t.pc)) (stepWith [0x0A, 0x20] (holding (holding sample 0x0020 [0xC0, 0x0D]) 0x0DC0 [0x31])) = some (0x31, 0x0202) := by decide

/-- Row M15 (decision D6). -/
theorem test_ldz_zp_pointer_at_ff :
    seen (fun t => t.a) (stepWith [0x0A, 0xFF] (holding (holding sample 0x00FF [0x34, 0x12]) 0x1234 [0x99])) = some 0x99 := by decide

/-- Row M14 (decision D5). -/
theorem test_stz_zp :
    seen (fun t => (t.mem.read 0x2005, t.mem.read 0x0003, t.pc)) (stepWith [0x0B, 0x02] (holding { sample with a := 0x2A, b := 0x05 } 0x0002 [0x00, 0x20])) = some (0x2A, 0x20, 0x0202) := by decide

/-- Row M20. -/
theorem test_stz_zp_above_top :
    faultOf (stepWith [0x0B, 0x20] (holding { sample with b := 0x10 } 0x0020 [0xF8, 0x3F])) = some (.accessOutOfRange 0x0200 0x4008) := by decide

/-- Row M16 (decision D27). -/
theorem test_io_ar :
    seen (fun t => (t.console, t.a, t.pc)) (stepWith [0x31] { sample with a := 0x48 }) = some ([0x48], 0x48, 0x0201) := by decide

/-- Row M17. -/
theorem test_io_br :
    seen (fun t => t.console) (stepWith [0x32] { sample with a := 0x99, console := [0x48] }) = some [0x48, 0x00] := by decide

/-- Row S1. -/
theorem test_push_ar :
    seen (fun t => (t.mem.read 0x0E00, t.sp, t.pc)) (stepWith [0x8B] { sample with a := 0x07 }) = some (0x07, 0x0E01, 0x0201) := by decide

/-- Row S5 (decision D34). -/
theorem test_push_ar_unbounded :
    seen (fun t => (t.mem.read 0x0FFF, t.sp)) (stepWith [0x8B] { sample with a := 0x01, sp := 0x0FFF }) = some (0x01, 0x1000) := by decide

/-- Row S2. -/
theorem test_push_imm :
    seen (fun t => (t.mem.read 0x0E01, t.sp, t.pc)) (stepWith [0x87, 0x09] { sample with sp := 0x0E01 }) = some (0x09, 0x0E02, 0x0202) := by decide

/-- Row S3 (decision D17). -/
theorem test_pop :
    seen (fun t => (t.a, t.sp, t.mem.read 0x0E01)) (stepWith [0x8A] (holding { sample with sp := 0x0E02 } 0x0E01 [0x09])) = some (0x09, 0x0E01, 0x09) := by decide

/-- Row S6 (decisions D3 and D8). -/
theorem test_pop_below_zero :
    faultOf (stepWith [0x8A] { sample with sp := 0x0000 }) = some (.accessOutOfRange 0x0200 0xFFFF) := by decide

/-- Row S7, with two more bytes of the example stack of 95_test_vectors.md section 1.1. -/
theorem test_peek_br :
    seen (fun t => (t.a, t.bp, t.pc)) (stepWith [0x8E] (holding { sample with b := 0xFB } 0x0E00 [0x07, 0x09])) = some (0x07, 0x0E05, 0x0201) := by decide

/-- Row S11. -/
theorem test_peek_imm_lowest_offset :
    seen (fun t => (t.a, t.pc)) (stepWith [0x88, 0x80] (holding { sample with bp := 0x0E80 } 0x0E00 [0x77])) = some (0x77, 0x0202) := by decide

/-- Row S14 (decision D8). -/
theorem test_peek_imm_below_zero :
    faultOf (stepWith [0x88, 0xFB] { sample with bp := 0x0002 }) = some (.accessOutOfRange 0x0200 0xFFFD) := by decide

/-- Row S12. -/
theorem test_poke_br :
    seen (fun t => (t.mem.read 0x0E07, t.bp, t.pc)) (stepWith [0x8C] { sample with a := 0x33, b := 0x02 }) = some (0x33, 0x0E05, 0x0201) := by decide

/-- Row S13. -/
theorem test_poke_imm :
    seen (fun t => (t.mem.read 0x0E00, t.bp, t.pc)) (stepWith [0x89, 0xFB] { sample with a := 0x99 }) = some (0x99, 0x0E05, 0x0202) := by decide

/-- Row S15 (decision D18). -/
theorem test_call :
    seen (fun t => ([0x0E02, 0x0E03, 0x0E04, 0x0E05].map t.mem.read, t.bp, t.sp, t.pc)) (stepWith [0x85, 0x20, 0x01] { sample with pc := 0x0104, sp := 0x0E02, bp := 0x1234 }) = some ([0x07, 0x01, 0x34, 0x12], 0x0E05, 0x0E06, 0x0120) := by decide

/-- Row S19. -/
theorem test_call_frame_above_top :
    faultOf (stepWith [0x85, 0x00, 0x03] { sample with sp := 0x3FFE, bp := 0x0000 }) = some (.accessOutOfRange 0x0200 0x4000) := by decide

/-- Row S17 (decision D19). -/
theorem test_ret_drops_locals :
    seen (fun t => (t.pc, t.bp, t.sp)) (stepWith [0x86] (holding { sample with sp := 0x0E08 } 0x0E02 [0x07, 0x01, 0x34, 0x12])) = some (0x0107, 0x1234, 0x0E02) := by decide

/-- Row S18. -/
theorem test_ret_to_poked_address :
    seen (fun t => t.pc) (stepWith [0x86] (holding { sample with sp := 0x0E06 } 0x0E02 [0x00, 0x02, 0x34, 0x12])) = some 0x0200 := by decide

/-- ADD table, row 0x7F + 0x01. -/
theorem test_add_imm_overflow :
    seen (fun t => (t.a, t.b, flagsOf t)) (stepWith [0x13, 0x01] { sample with a := 0x7F }) = some (0x80, 0, [false, true, false, true]) := by decide

/-- ADD table, row 0x01 + 0x01, with C set before (decision D11). -/
theorem test_add_imm_ignores_carry :
    seen (fun t => (t.a, t.b, flagsOf t)) (stepWith [0x13, 0x01] { sample with a := 0x01, flagC := true }) = some (0x02, 0, [false, false, false, false]) := by decide

/-- ADD table, row 0x80 + 0x80. -/
theorem test_add_br_carry_and_overflow :
    seen (fun t => (t.a, t.b, flagsOf t)) (stepWith [0x14] { sample with a := 0x80, b := 0x80 }) = some (0x00, 0x80, [true, false, true, true]) := by decide

/-- ADD table, row 0xF0 + 0x20. -/
theorem test_add_br_carry :
    seen (fun t => (t.a, t.b, flagsOf t)) (stepWith [0x14] { sample with a := 0xF0, b := 0x20 }) = some (0x10, 0x20, [false, false, true, false]) := by decide

/-- SUB table, row 0x05 - 0x06 (decision D12). -/
theorem test_sub_imm_borrow :
    seen (fun t => (t.a, t.b, flagsOf t)) (stepWith [0x43, 0x06] { sample with a := 0x05 }) = some (0xFF, 0, [false, true, true, false]) := by decide

/-- SUB table, row 0x80 - 0x01. -/
theorem test_sub_imm_overflow :
    seen (fun t => (t.a, t.b, flagsOf t)) (stepWith [0x43, 0x01] { sample with a := 0x80 }) = some (0x7F, 0, [false, false, false, true]) := by decide

/-- SUB table, row 0x7F - 0x80. -/
theorem test_sub_br_borrow_and_overflow :
    seen (fun t => (t.a, t.b, flagsOf t)) (stepWith [0x44] { sample with a := 0x7F, b := 0x80 }) = some (0xFF, 0x80, [false, true, true, true]) := by decide

/-- SUB table, row 0xFF - 0xFF, with C set before (decision D12). -/
theorem test_sub_br_equal :
    seen (fun t => (t.a, t.b, flagsOf t)) (stepWith [0x44] { sample with a := 0xFF, b := 0xFF, flagC := true }) = some (0x00, 0xFF, [true, false, false, false]) := by decide

/-- The CLC row. -/
theorem test_clc_keeps_z_and_m :
    seen (fun t => (t.a, t.b, flagsOf t)) (stepWith [0x15] { sample with a := 0x01, flagZ := true, flagC := true, flagV := true }) = some (0x01, 0, [true, false, false, false]) := by decide

/-- SHL table, row 0x81. -/
theorem test_shl :
    seen (fun t => (t.a, t.b, flagsOf t)) (stepWith [0x28] { sample with a := 0x81 }) = some (0x02, 0, [false, false, true, false]) := by decide

/-- SHL table, row 0x00, with C set before. -/
theorem test_shl_ignores_carry :
    seen (fun t => (t.a, t.b, flagsOf t)) (stepWith [0x28] { sample with a := 0x00, flagC := true }) = some (0x00, 0, [true, false, false, false]) := by decide

/-- SHR table, row 0x81. -/
theorem test_shr :
    seen (fun t => (t.a, t.b, flagsOf t)) (stepWith [0x29] { sample with a := 0x81 }) = some (0x40, 0, [false, false, true, false]) := by decide

/-- SHR table, row 0x01. -/
theorem test_shr_to_zero :
    seen (fun t => (t.a, t.b, flagsOf t)) (stepWith [0x29] { sample with a := 0x01 }) = some (0x00, 0, [true, false, true, false]) := by decide

/-- INC table, row 0xFF. -/
theorem test_inc_ar_wraps :
    seen (fun t => (t.a, t.b, flagsOf t)) (stepWith [0x2C] { sample with a := 0xFF, b := 0x11 }) = some (0x00, 0x11, [true, false, true, false]) := by decide

/-- INC table, row 0x7F. -/
theorem test_inc_br_overflow :
    seen (fun t => (t.a, t.b, flagsOf t)) (stepWith [0x2D] { sample with a := 0x11, b := 0x7F }) = some (0x11, 0x80, [false, true, false, true]) := by decide

/-- DEC table, row 0x00. -/
theorem test_dec_ar_wraps :
    seen (fun t => (t.a, t.b, flagsOf t)) (stepWith [0x2A] { sample with a := 0x00, b := 0x11 }) = some (0xFF, 0x11, [false, true, true, false]) := by decide

/-- DEC table, row 0x80. -/
theorem test_dec_br_overflow :
    seen (fun t => (t.a, t.b, flagsOf t)) (stepWith [0x2B] { sample with a := 0x11, b := 0x80 }) = some (0x11, 0x7F, [false, false, false, true]) := by decide

/-- AND table, row 0xAA, 0x55, with C and V set before (decision D14). -/
theorem test_and_br :
    seen (fun t => (t.a, t.b, flagsOf t)) (stepWith [0x21] { sample with a := 0xAA, b := 0x55, flagC := true, flagV := true }) = some (0x00, 0x55, [true, false, false, false]) := by decide

/-- AND table, row 0xF0, 0x3C. -/
theorem test_and_imm :
    seen (fun t => (t.a, t.b, flagsOf t)) (stepWith [0x25, 0x3C] { sample with a := 0xF0 }) = some (0x30, 0, [false, false, false, false]) := by decide

/-- OR table, row 0xF0, 0x3C. -/
theorem test_or_br :
    seen (fun t => (t.a, t.b, flagsOf t)) (stepWith [0x22] { sample with a := 0xF0, b := 0x3C }) = some (0xFC, 0x3C, [false, true, false, false]) := by decide

/-- OR table, row 0x80, 0xFF, with C and V set before (decision D14). -/
theorem test_or_imm :
    seen (fun t => (t.a, t.b, flagsOf t)) (stepWith [0x26, 0xFF] { sample with a := 0x80, flagC := true, flagV := true }) = some (0xFF, 0, [false, true, false, false]) := by decide

/-- XOR table, row 0xF0, 0x3C. -/
theorem test_xor_br :
    seen (fun t => (t.a, t.b, flagsOf t)) (stepWith [0x23] { sample with a := 0xF0, b := 0x3C }) = some (0xCC, 0x3C, [false, true, false, false]) := by decide

/-- XOR table, row 0x80, 0xFF. -/
theorem test_xor_imm :
    seen (fun t => (t.a, t.b, flagsOf t)) (stepWith [0x27, 0xFF] { sample with a := 0x80 }) = some (0x7F, 0, [false, false, false, false]) := by decide

/-- NOT table, row 0x0F. -/
theorem test_not :
    seen (fun t => (t.a, t.b, flagsOf t)) (stepWith [0x24] { sample with a := 0x0F }) = some (0xF0, 0, [false, true, false, false]) := by decide

/-- 95_test_vectors.md section 2.4, column JMP. -/
theorem test_jmp :
    seen (fun t => t.pc) (stepWith [0x81, 0x34, 0x12] sample) = some 0x1234 := by decide

/-- 95_test_vectors.md section 2.4, the self-jump. -/
theorem test_jmp_to_itself :
    seen (fun t => t.pc) (stepWith [0x81, 0x00, 0x02] sample) = some 0x0200 := by decide

/-- One step of a jump at 0x0200 to 0x1234 under the six settings of the flags of 95_test_vectors.md section 2.4:
whether it is taken; `none` if it goes elsewhere. -/
def taken (op : Byte) : List (Option Bool) :=
  [[false, false, false, false], [true, false, false, false], [false, true, false, false], [true, false, true, false],
   [false, true, false, true], [true, false, true, true]].map fun f =>
    match stepWith [op, 0x34, 0x12]
        { sample with flagZ := f[0]!, flagM := f[1]!, flagC := f[2]!, flagV := f[3]! } with
    | .next t => if t.pc = 0x1234 then some true else if t.pc = 0x0203 then some false else none
    | .fault _ => none
    | .refused _ => none

/-- 95_test_vectors.md section 2.4, column JZ. -/
theorem test_jz :
    taken 0x91 = [some false, some true, some false, some true, some false, some true] := by decide

/-- 95_test_vectors.md section 2.4, column JNZ. -/
theorem test_jnz :
    taken 0xA1 = [some true, some false, some true, some false, some true, some false] := by decide

/-- 95_test_vectors.md section 2.4, column JM. -/
theorem test_jm :
    taken 0xB1 = [some false, some false, some true, some false, some true, some false] := by decide

/-- 95_test_vectors.md section 2.4, column JP. -/
theorem test_jp :
    taken 0xC1 = [some true, some false, some false, some false, some false, some false] := by decide

/-- 95_test_vectors.md section 2.4, column JC. -/
theorem test_jc :
    taken 0xD1 = [some false, some false, some false, some true, some false, some true] := by decide

/-- 95_test_vectors.md section 2.4, column JNC. -/
theorem test_jnc :
    taken 0xE1 = [some true, some true, some true, some false, some true, some false] := by decide

/-- 95_test_vectors.md section 2.4, column JOF. -/
theorem test_jof :
    taken 0xD2 = [some false, some false, some false, some false, some true, some true] := by decide

/-- 95_test_vectors.md section 2.4, column JNOF. -/
theorem test_jnof :
    taken 0xE2 = [some true, some true, some true, some true, some false, some false] := by decide

/-- 95_test_vectors.md section 2.4: a jump above memory is taken, and the next step faults. -/
theorem test_fetch_above_top :
    faultOf (step { sample with pc := 0x4000 }) = some (.accessOutOfRange 0x4000 0x4000) := by decide

/-- 30_encoding.md R78: an undefined opcode faults. -/
theorem test_undefined_opcode_faults :
    faultOf (stepWith [0x8D] sample) = some (.illegalOpcode 0x0200 0x8D) := by decide

/-- 60_exceptions.md R195: an undefined opcode at 0x3FFF is found before the operand bytes above it. -/
theorem test_opcode_before_operands :
    faultOf (stepWith [0xFF] { sample with pc := 0x3FFF }) = some (.illegalOpcode 0x3FFF 0xFF) ∧
    faultOf (stepWith [0x03] { sample with pc := 0x3FFF }) = some (.accessOutOfRange 0x3FFF 0x4000) := by decide

/-- 30_encoding.md R91 and R92: the assembler places code, resolves a label and refuses `SET`. -/
theorem test_assembler :
    (match assembleImage 0x0100 [.loc "end", .instr .jmp [.label "end"]] with
      | .ok m => decide (m = [(0x0100, 0x81), (0x0102, 0x01)])
      | .error _ => false) = true ∧
    (match assembleImage 0x0100 [.set 1] with
      | .ok _ => false
      | .error e => decide (e = .setNotDefined)) = true := by decide

/-- 60_exceptions.md R203: row 1 of code 0x41 in set 1 is at 0x1000 + 0x800 + 8 * 0x41 + 1. -/
theorem test_glyph_address : glyphAddr true 0x41 1 = 0x1A09 := by decide

/-! ## Witnesses: states and operands that meet the hypotheses of each statement, at the ends of each clause -/

/-- A next state's answer, for the witnesses about runs of `exec`. -/
def isNext : Result → Bool
  | .next _ => true
  | .fault _ => false
  | .refused _ => false

theorem witness_MovLoadsByteFromMemory : Implemented 0x0000 ∧ Implemented 0x3FFF ∧ ¬ Implemented 0x4000 ∧
    isNext (exec (.movArMem 0x3FFF) sample) = true ∧ isNext (exec (.movArMem 0x4000) sample) = false := by decide

theorem witness_MovStoresByteToMemory : Implemented 0x0000 ∧ Implemented 0x3FFF ∧ ¬ Implemented 0x4000 ∧
    isNext (exec (.movMemBr 0x3FFF) sample) = true ∧ isNext (exec (.movMemBr 0x4000) sample) = false := by decide

theorem witness_CharacterRomIsWritable :
    0x1000 ≤ (0x1000 : Addr).toNat ∧ (0x1000 : Addr).toNat ≤ 0x1FFF ∧
    0x1000 ≤ (0x1FFF : Addr).toNat ∧ (0x1FFF : Addr).toNat ≤ 0x1FFF := by decide

theorem witness_LdoStoUseAddressPlusB :
    Implemented ({ sample with b := 0xFF }.indexed 0x3F00) ∧ ¬ Implemented ({ sample with b := 0xFF }.indexed 0x3F01) ∧
    Implemented ({ sample with b := 0x01 }.indexed 0xFFFF) ∧ ¬ Implemented (sample.indexed 0xFFFF) := by decide

/-- The pointer at 0x20 holds 0x3FFE, that at 0xFF holds 0x3FFE too; A names the first. -/
def pointing : State := holding (holding { sample with a := 0x20, b := 0x01 } 0x20 [0xFE, 0x3F]) 0xFF [0xFE, 0x3F]

theorem witness_ZeroPagePointerAccesses :
    Implemented (pointing.zpIndexed 0x20) ∧ pointing.a = 0x20 ∧ Implemented (pointing.zpIndexed 0xFF) ∧
    ¬ Implemented ({ pointing with b := 0x02 }.zpIndexed 0x20) ∧ { pointing with b := 0x02 }.a = 0x20 := by decide

theorem witness_PushImmediateStoresAtStackPointer :
    { sample with sp := 0x3FFF }.sp.toNat ≤ Config.memTop ∧ Config.memTop < { sample with sp := 0x4000 }.sp.toNat := by
  decide

theorem witness_PushAndPopMoveOneByte :
    Implemented { sample with sp := 0x3FFF }.sp ∧ ¬ Implemented { sample with sp := 0x4000 }.sp ∧
    Implemented ({ sample with sp := 0x4000 }.sp - 1) ∧ ¬ Implemented ({ sample with sp := 0x4001 }.sp - 1) ∧
    Implemented ({ sample with sp := 0x0001 }.sp - 1) ∧ ¬ Implemented ({ sample with sp := 0x0000 }.sp - 1) := by decide

theorem witness_PeekAndPokeReachFrameBytes :
    Implemented ({ sample with bp := 0x3F80 }.frameAddr 0x7F) ∧ ¬ Implemented ({ sample with bp := 0x3F81 }.frameAddr 0x7F) ∧
    Implemented ({ sample with bp := 0x0080 }.frameAddr 0x80) ∧ ¬ Implemented ({ sample with bp := 0x007F }.frameAddr 0x80) ∧
    Implemented ({ sample with bp := 0x3FFE, b := 0x01 }.frameAddr { sample with bp := 0x3FFE, b := 0x01 }.b) ∧
    ¬ Implemented ({ sample with bp := 0x3FFE, b := 0x02 }.frameAddr { sample with bp := 0x3FFE, b := 0x02 }.b) := by decide

theorem witness_CallSavesFrame :
    (∀ y ∈ fourFrom { sample with sp := 0x3FFC }.sp, Implemented y) ∧
    firstOutOfRange (fourFrom { sample with sp := 0x3FFD }.sp) = some 0x4000 ∧
    firstOutOfRange (fourFrom { sample with sp := 0xFFFE }.sp) = some 0xFFFE :=
  ⟨by simp [fourFrom], by decide, by decide⟩

theorem witness_RetRestoresFrame :
    (Implemented ((0x3FFF : Addr) - 3) ∧ Implemented ((0x3FFF : Addr) - 2) ∧ Implemented ((0x3FFF : Addr) - 1) ∧
      Implemented (0x3FFF : Addr)) ∧
    (Implemented ((0x0003 : Addr) - 3) ∧ Implemented ((0x0003 : Addr) - 2) ∧ Implemented ((0x0003 : Addr) - 1) ∧
      Implemented (0x0003 : Addr)) ∧
    firstOutOfRange [(0x4000 : Addr) - 3, 0x4000 - 2, 0x4000 - 1, 0x4000] = some 0x4000 ∧
    firstOutOfRange [(0x0002 : Addr) - 3, 0x0002 - 2, 0x0002 - 1, 0x0002] = some 0xFFFF := by decide

/-- The state a `CALL` at the top of memory's stack space makes. -/
theorem witness_RetUndoesCall :
    ∃ t, exec (.call 0x1234) { sample with sp := 0x3FFC } = .next t ∧ t.bp = 0x3FFF ∧
      ∀ y ∈ fourFrom { sample with sp := 0x3FFC }.sp, t.mem.read y.toNat = t.mem.read y.toNat := by
  refine ⟨_, State.checked_of_inRange _ _ _ ?_, ?_, fun _ _ => rfl⟩
  · simp [fourFrom, inRange, Config.memTop]
  · simp

theorem witness_FrameReachesArgumentsAndLocals :
    (List.replicate 125 (0x11 : Byte)).length ≤ 125 ∧ (List.replicate 127 (0x22 : Byte)).length ≤ 127 ∧
    { sample with sp := 0x3F00 }.sp.toNat + (List.replicate 125 (0x11 : Byte)).length + 4 +
      (List.replicate 127 (0x22 : Byte)).length ≤ 0x4000 ∧
    (List.replicate 125 (0x11 : Byte))[124]? = some 0x11 ∧ (List.replicate 127 (0x22 : Byte))[126]? = some 0x22 := by
  simp

theorem witness_OverflowMeansSignedOutOfRange :
    (∃ t, exec (.addImm 0x01) { sample with a := 0x7F } = .next t ∧ t.flagV = true) ∧
    (∃ t, exec .addBr { sample with a := 0x80, b := 0x80 } = .next t ∧ t.flagV = true) ∧
    (∃ t, exec (.subImm 0x01) { sample with a := 0x80 } = .next t ∧ t.flagV = true) ∧
    (∃ t, exec .subBr { sample with a := 0x81, b := 0x01 } = .next t ∧ t.flagV = false) ∧
    (∃ t, exec .incBr { sample with b := 0x7F } = .next t ∧ t.flagV = true) ∧
    (∃ t, exec .decBr { sample with b := 0x80 } = .next t ∧ t.flagV = true) :=
  ⟨⟨_, rfl, rfl⟩, ⟨_, rfl, rfl⟩, ⟨_, rfl, rfl⟩, ⟨_, rfl, rfl⟩, ⟨_, rfl, rfl⟩, ⟨_, rfl, rfl⟩⟩

theorem witness_JumpsTestSignOfLastResult :
    sample.setFlags ⟨0x80, false, false⟩ = { sample with flagM := true } ∧
    sample.setFlags ⟨0x00, false, false⟩ = { sample with flagZ := true } ∧
    sample.setFlags ⟨0x7F, false, false⟩ = sample := by decide

theorem witness_StoresStayInsideWriteFootprint :
    isNext (exec (.movMemAr 0x3FFF) sample) = true ∧ (∀ y ∈ dataWrites (.movMemAr 0x3FFF) sample, y.toNat ≠ 0x3FFE) ∧
    isNext (exec (.call 0x0000) sample) = true ∧
    ∀ y ∈ dataWrites (.call 0x0000) sample, y.toNat ≠ 0x0DFF ∧ y.toNat ≠ 0x0E04 :=
  ⟨by decide, by simp [dataWrites], by decide, by simp [dataWrites, fourFrom, sample]⟩

theorem witness_ExecCompletesIffFootprintImplemented :
    (∀ y ∈ dataReads .ret sample ++ dataWrites .ret sample, Implemented y) ∧
    firstOutOfRange (dataReads (.stzZp 0x20) { pointing with b := 0x02 } ++
      dataWrites (.stzZp 0x20) { pointing with b := 0x02 }) = some 0x4000 :=
  ⟨by simp [dataReads, dataWrites, fourFrom, State.retBase_eq, sample], by decide⟩

theorem witness_InstructionsWriteOnlyTabledState :
    isNext (exec (.jmp 0x4000) sample) = true ∧ (writesOf (.jmp 0x4000)).a = false ∧ (writesOf (.jmp 0x4000)).b = false ∧
    (writesOf (.jmp 0x4000)).sp = false ∧ (writesOf (.jmp 0x4000)).bp = false ∧ (writesOf (.jmp 0x4000)).zm = false ∧
    (writesOf (.jmp 0x4000)).cv = false ∧ (writesOf (.jmp 0x4000)).mem = false ∧
    (writesOf (.jmp 0x4000)).console = false ∧ isNext (exec .swp sample) = true ∧ (writesOf .swp).transfers = false := by
  decide

/-- `CLC` reads nothing, so it starts alike from states that differ in every register and flag. -/
theorem witness_InstructionsReadOnlyTabledState :
    (readsOf .clc).a = false ∧ (readsOf .clc).b = false ∧ (readsOf .clc).sp = false ∧ (readsOf .clc).bp = false ∧
    (readsOf .clc).z = false ∧ (readsOf .clc).m = false ∧ (readsOf .clc).c = false ∧ (readsOf .clc).v = false ∧
    (readsOf (.jz 0x0300)).z = true ∧ (readsOf (.jz 0x0300)).a = false := by decide

/-- `LDO [0x0A00]` at 0x0200 with another memory that differs at 0x3000 only. -/
theorem witness_StepDependsOnlyOnBytesItReads :
    (∀ y ∈ (holding sample 0x0200 [0x08, 0x00, 0x0A]).fetchAddrs,
      ((holding sample 0x0200 [0x08, 0x00, 0x0A]).mem.write 0x3000 0x55).read y.toNat =
        (holding sample 0x0200 [0x08, 0x00, 0x0A]).mem.read y.toNat) ∧
    (∀ y ∈ dataReads (.ldo 0x0A00) (holding sample 0x0200 [0x08, 0x00, 0x0A]),
      ((holding sample 0x0200 [0x08, 0x00, 0x0A]).mem.write 0x3000 0x55).read y.toNat =
        (holding sample 0x0200 [0x08, 0x00, 0x0A]).mem.read y.toNat) ∧
    (match (holding sample 0x0200 [0x08, 0x00, 0x0A]).fetch with
      | .ok i => decide (i = .ldo 0x0A00)
      | .error _ => false) = true := by
  have h : ∀ y : Addr, y.toNat ≠ 0x3000 →
      ((holding sample 0x0200 [0x08, 0x00, 0x0A]).mem.write 0x3000 0x55).read y.toNat =
        (holding sample 0x0200 [0x08, 0x00, 0x0A]).mem.read y.toNat := fun y hy => Memory.read_write_other _ _ hy
  have hf : (holding sample 0x0200 [0x08, 0x00, 0x0A]).fetchAddrs = [0x0200, 0x0201, 0x0202] := by decide
  have hr : dataReads (.ldo 0x0A00) (holding sample 0x0200 [0x08, 0x00, 0x0A]) = [0x0A00] := by decide
  refine ⟨fun y hy => h y ?_, fun y hy => h y ?_, by decide⟩
  · rw [hf] at hy
    rintro e
    simp [← BitVec.toNat_inj, e] at hy
  · rw [hr] at hy
    rintro e
    simp [← BitVec.toNat_inj, e] at hy

theorem witness_StepKeepsMemoryCanonical :
    (holding sample 0x0200 [0x85, 0x34, 0x12]).mem.wf = true ∧
    isNext (step (holding sample 0x0200 [0x85, 0x34, 0x12])) = true := by decide

theorem witness_ResetMemoryIsCanonical : Memory.wf [(0x0000, 0x01), (0x3FFF, 0xFF)] = true := by decide

theorem witness_CanonicalMemoriesThatReadAlikeAreEqual :
    Memory.wf [(0x0000, 0x01), (0x3FFF, 0xFF)] = true ∧
    ∀ x, Memory.read [(0x0000, 0x01), (0x3FFF, 0xFF)] x =
      ((Memory.write [] 0x3FFF 0xFF).write 0x0000 0x01).read x :=
  ⟨by decide, fun _ => rfl⟩

theorem witness_DecodeAndEncodeAreInverse :
    (Instr.jnof 0xFFFF).wellFormed = true ∧ (Instr.movArMem 0x0000).wellFormed = true ∧
    decode [0xE2, 0xFF, 0xFF, 0x99] = .ok (.jnof 0xFFFF, [0x99]) :=
  ⟨rfl, rfl, rfl⟩

theorem witness_UndefinedOpcodesAsListed : 0x00 < 256 ∧ 0xFF < 256 := by decide

/-- The last byte of memory holds a one-byte instruction, the last three a three-byte one. -/
theorem witness_StepRunsDecodedInstruction :
    (let s := holding { sample with pc := 0x3FFF } 0x3FFF [0x07]
     decode [s.readByte s.pc, s.readByte (s.pc + 1), s.readByte (s.pc + 2)] = .ok (.swp, [0x00, 0x00]) ∧
     Instr.swp.wellFormed = true ∧ ∀ k : Nat, k < Instr.swp.length → Implemented (s.pc + BitVec.ofNat 16 k)) ∧
    (let s := holding { sample with pc := 0x3FFD } 0x3FFD [0x81, 0xFD, 0x3F]
     decode [s.readByte s.pc, s.readByte (s.pc + 1), s.readByte (s.pc + 2)] = .ok (.jmp 0x3FFD, []) ∧
     (Instr.jmp 0x3FFD).wellFormed = true ∧
     ∀ k : Nat, k < (Instr.jmp 0x3FFD).length → Implemented (s.pc + BitVec.ofNat 16 k)) :=
  ⟨⟨rfl, rfl, by decide⟩, ⟨rfl, rfl, by decide⟩⟩

theorem witness_FetchFaultsInOrder :
    ¬ Implemented { sample with pc := 0x4000 }.pc ∧
    (Implemented (holding { sample with pc := 0x3FFF } 0x3FFF [0xFF]).pc ∧
      (opcodeForm ((holding { sample with pc := 0x3FFF } 0x3FFF [0xFF]).readByte 0x3FFF)).isNone = true) ∧
    (Implemented (0x3FFE : Addr) ∧
      ((opcodeForm ((holding { sample with pc := 0x3FFE } 0x3FFE [0x81]).readByte 0x3FFE)).map
        (fun form => form.format.length)) = some 3 ∧
      ¬ Implemented ((0x3FFE : Addr) + BitVec.ofNat 16 2) ∧ Implemented ((0x3FFE : Addr) + BitVec.ofNat 16 1)) ∧
    (Implemented (0x3FFF : Addr) ∧
      ((opcodeForm ((holding { sample with pc := 0x3FFF } 0x3FFF [0x03]).readByte 0x3FFF)).map
        (fun form => form.format.length)) = some 2 ∧
      ¬ Implemented ((0x3FFF : Addr) + BitVec.ofNat 16 1)) := by decide

theorem witness_NextFetchSeesStore :
    (∀ k : Nat, k < 4 → Implemented ((0x3FFC : Addr) + BitVec.ofNat 16 k)) ∧
    (let s := holding { sample with pc := 0x3FFC, a := 0x07 } 0x3FFC [0x05, 0xFF, 0x3F]
     s.readByte s.pc = 0x05 ∧ s.readByte (s.pc + 1) = loByte (s.pc + 3) ∧ s.readByte (s.pc + 2) = hiByte (s.pc + 3) ∧
     opcodeForm s.a = some (.f1 .swp)) :=
  ⟨by decide, by decide, by decide, by decide, rfl⟩

theorem witness_SelfJumpIsFixedPoint :
    (∀ k : Nat, k < 3 → Implemented ((0x3FFD : Addr) + BitVec.ofNat 16 k)) ∧
    (let s := holding { sample with pc := 0x3FFD } 0x3FFD [0x81, 0xFD, 0x3F]
     s.readByte s.pc = 0x81 ∧ s.readByte (s.pc + 1) = loByte s.pc ∧ s.readByte (s.pc + 2) = hiByte s.pc ∧
     s.pc ≠ 0x0000) := by decide

/-- With `END_PC` 0x0201 the run of `SWP` ends; with another it meets the zero byte after it and faults. -/
theorem witness_RunsEndOrFaultForGood :
    (∃ t, (RunState.running (holding sample 0x0200 [0x07])).after 0x0201 2 = .ended t) ∧
    (∃ t f, (RunState.running (holding sample 0x0200 [0x07])).after 0x0300 2 = .faulted t f) :=
  ⟨⟨_, rfl⟩, ⟨_, _, rfl⟩⟩

theorem witness_DurationsAddUp :
    (holding sample 0x0200 [0x07]).pc ≠ 0x0201 ∧
    (match (holding sample 0x0200 [0x07]).fetch with
      | .ok i => decide (i = .swp)
      | .error _ => false) = true ∧
    isNext (exec .swp (holding sample 0x0200 [0x07])) = true := by decide

theorem witness_PictureDependsOnlyOnGlyphsAndCodes :
    (∀ x, 0x1000 ≤ x → x ≤ 0x23FF → Memory.read [(0x0FFF, 0x01)] x = Memory.read [(0x2400, 0x01)] x) ∧
    1023 < 1024 ∧ 7 < 8 := by
  refine ⟨fun x h0 h1 => ?_, by decide, by decide⟩
  have h : ¬ 0x0FFF = x := by omega
  have h' : ¬ 0x2400 = x := by omega
  simp [Memory.read, h, h']

theorem witness_AddressReadingsAgreeWhereStated : (0x7F : Byte).msb = false ∧ (0x80 : Byte).msb = true := by decide

end Sys2Proof.Tests
end

section
/-! Proofs of the statements about memory (20_memory.md). -/

namespace Sys2Proof.Machine

/-- 20_memory.md R42 and R52: the one check of a data access passes at an implemented address. -/
theorem State.checked_singleton_of_inRange (s : State) {addr : Addr} (r : Result) (h : inRange addr = true) :
    s.checked [addr] r = r :=
  State.checked_of_inRange s [addr] r (by simpa using h)

/-- 41_memory_ops.md R105. -/
theorem exec_movMemAr_of_inRange (s : State) {addr : Addr} (h : inRange addr = true) :
    exec (.movMemAr addr) s = .next ((s.writeByte addr s.a).advance 3) :=
  State.checked_singleton_of_inRange s _ h

/-- 41_memory_ops.md R102. -/
theorem exec_movBrMem_of_inRange (s : State) {addr : Addr} (h : inRange addr = true) :
    exec (.movBrMem addr) s = .next ((s.setB (s.readByte addr)).advance 3) :=
  State.checked_singleton_of_inRange s _ h

/-- A byte written is the byte read back (00_scope.md R4). -/
@[simp] theorem State.writeByte_readByte_same (s : State) (addr : Addr) (v : Byte) :
    (s.writeByte addr v).readByte addr = v := by
  rw [State.writeByte_readByte, if_pos rfl]

/-- 20_memory.md R42 says it of the Character ROM, but its reason is R43: at every implemented address, storing A and
loading B from there answer next states, and carry the byte of A to B. -/
theorem movMemAr_then_movBrMem (s : State) {addr : Addr} (h : inRange addr = true) :
    ∃ t u, exec (.movMemAr addr) s = .next t ∧ exec (.movBrMem addr) t = .next u ∧ u.b = s.a ∧
      ∀ x, x ≠ addr.toNat → u.mem.read x = s.mem.read x := by
  refine ⟨_, _, exec_movMemAr_of_inRange s h, exec_movBrMem_of_inRange _ h, ?loaded, ?frame⟩
  case loaded => simp
  case frame =>
    intro x hx
    simpa using Memory.read_write_other s.mem s.a hx

/-- The Character ROM lies below `MEM_TOP` (20_memory.md R40, R43). -/
theorem inRange_of_le_characterRomEnd {addr : Addr} (h : addr.toNat ≤ 0x1FFF) : inRange addr = true := by
  rw [inRange_iff, Config.memTop]
  omega

/-- Settles O4: the region is implemented, and no implemented address is treated apart from the others. -/
theorem characterRomIsWritable : Obligations.CharacterRomIsWritable := by
  intro addr s _ hhi
  have himp : inRange addr = true := inRange_of_le_characterRomEnd hhi
  exact ⟨fun v => ⟨himp, State.writeByte_readByte_same s addr v⟩, movMemAr_then_movBrMem s himp⟩

end Sys2Proof.Machine
end

section
/-! Proofs of the statements about the memory instructions (41_memory_ops.md). -/

namespace Sys2Proof.Machine

/-- 30_encoding.md R73 and R74: in format F2I the byte after the opcode is the immediate, and the bytes after it stay. -/
theorem decode_of_opcodeForm_f2i {op : Byte} {make : Byte → Instr} (imm : Byte) (rest : List Byte)
    (h : opcodeForm op = some (.f2i make)) : decode (op :: imm :: rest) = .ok (make imm, rest) := by
  simp [decode, h]

/-- 41_memory_ops.md R103: no data access, so no check and no fault. -/
theorem exec_movArImm (imm : Byte) (s : State) : exec (.movArImm imm) s = .next ((s.setA imm).advance 2) := rfl

/-- 41_memory_ops.md R104: no data access, so no check and no fault. -/
theorem exec_movBrImm (imm : Byte) (s : State) : exec (.movBrImm imm) s = .next ((s.setB imm).advance 2) := rfl

/-- Settles O1: the rows 0x03 and 0x04 of the opcode table are of format F2I, and each instruction writes its register
and PC in every state. -/
theorem movImmediateLoadsRegister : Obligations.MovImmediateLoadsRegister := by
  intro imm rest s
  have decodeAr : decode (0x03 :: imm :: rest) = .ok (.movArImm imm, rest) := decode_of_opcodeForm_f2i imm rest rfl
  have decodeBr : decode (0x04 :: imm :: rest) = .ok (.movBrImm imm, rest) := decode_of_opcodeForm_f2i imm rest rfl
  exact ⟨⟨decodeAr, exec_movArImm imm s, rfl⟩, ⟨decodeBr, exec_movBrImm imm s, rfl⟩⟩

end Sys2Proof.Machine
end

section
/-! Proofs of the statements about the stack instructions (42_stack_ops.md). -/

namespace Sys2Proof.Machine

/-- 20_memory.md R43 and R52: the one check of a data access faults above `MEM_TOP`, with the address and PC. -/
theorem State.checked_singleton_of_memTop_lt (s : State) {addr : Addr} (r : Result)
    (h : Config.memTop < addr.toNat) : s.checked [addr] r = .fault (.accessOutOfRange s.pc addr) := by
  have hout : ¬ inRange addr = true := by
    rw [inRange_iff]
    omega
  rw [State.checked_cons, if_neg hout]

/-- A result whose memory is that of `s` with one byte written stores that byte and no other (00_scope.md R4). -/
theorem storesByte_of_eq_write {r : Result} {s : State} {ea : Addr} {v : Byte} {after : Memory → State}
    (h : r = .next (after (s.mem.write ea.toNat v))) : StoresByte r s ea v after :=
  ⟨_, h, Memory.read_write_same _ _ _, fun _ hx => Memory.read_write_other _ _ hx⟩

/-- 42_stack_ops.md R122: the one data access is at SP. -/
theorem exec_pushImm (imm : Byte) (s : State) :
    exec (.pushImm imm) s =
      s.checked [s.sp] (.next (((s.writeByte s.sp imm).setSp (s.sp + 1)).advance 2)) := rfl

/-- 42_stack_ops.md R122, with SP implemented. -/
theorem exec_pushImm_of_inRange (imm : Byte) (s : State) (h : inRange s.sp = true) :
    exec (.pushImm imm) s =
      .next { s with mem := s.mem.write s.sp.toNat imm, sp := s.sp + 1, pc := s.pc + 2 } := by
  rw [exec_pushImm, State.checked_singleton_of_inRange s _ h]
  rfl

/-- 42_stack_ops.md R122, with SP above `MEM_TOP`. -/
theorem exec_pushImm_of_memTop_lt (imm : Byte) (s : State) (h : Config.memTop < s.sp.toNat) :
    exec (.pushImm imm) s = .fault (.accessOutOfRange s.pc s.sp) := by
  rw [exec_pushImm, State.checked_singleton_of_memTop_lt s _ h]

/-- Settles O10: the row 0x87 of the opcode table is of format F2I, and the check of SP decides between the store at
SP and the fault. -/
theorem pushImmediateStoresAtStackPointer : Obligations.PushImmediateStoresAtStackPointer := by
  intro imm rest s
  have decodePush : decode (0x87 :: imm :: rest) = .ok (.pushImm imm, rest) := decode_of_opcodeForm_f2i imm rest rfl
  refine ⟨decodePush, rfl, fun hsp => ?stores, exec_pushImm_of_memTop_lt imm s⟩
  case stores =>
    exact storesByte_of_eq_write (exec_pushImm_of_inRange imm s ((inRange_iff s.sp).mpr hsp))

end Sys2Proof.Machine
end

section
/-! The memory effect of an instruction: the cells it stores, and what they do to the canonical form, to the bytes
outside its write footprint, and to another memory (20_memory.md R50 to R52). -/

namespace Sys2Proof.Machine

/-! ### Cells stored one after another -/

/-- The memory after storing cells in the order given. -/
def Memory.storeAll : Memory → List (Addr × Byte) → Memory
  | m, [] => m
  | m, (addr, v) :: rest => Memory.storeAll (m.write addr.toNat v) rest

theorem Memory.storeAll_cons (m : Memory) (addr : Addr) (v : Byte) (rest : List (Addr × Byte)) :
    m.storeAll ((addr, v) :: rest) = (m.write addr.toNat v).storeAll rest := rfl

/-- Stores to implemented addresses keep the canonical form. -/
theorem Memory.storeAll_wf {m : Memory} {cells : List (Addr × Byte)} (hm : m.wf = true)
    (hcells : ∀ y ∈ cells.map Prod.fst, inRange y = true) : (m.storeAll cells).wf = true := by
  induction cells generalizing m with
  | nil => exact hm
  | cons cell rest ih =>
    obtain ⟨addr, v⟩ := cell
    rw [List.map_cons, List.forall_mem_cons] at hcells
    exact ih (Memory.write_wf m addr.toNat v hm ((inRange_iff addr).mp hcells.1)) hcells.2

/-- A byte that no cell names reads as before. -/
theorem Memory.read_storeAll_of_forall_ne {m : Memory} {cells : List (Addr × Byte)} {x : Nat}
    (hx : ∀ y ∈ cells.map Prod.fst, y.toNat ≠ x) : (m.storeAll cells).read x = m.read x := by
  induction cells generalizing m with
  | nil => rfl
  | cons cell rest ih =>
    obtain ⟨addr, v⟩ := cell
    rw [List.map_cons, List.forall_mem_cons] at hx
    rw [Memory.storeAll_cons, ih hx.2, Memory.read_write_other m v hx.1.symm]

/-- The same cells stored into two memories read alike wherever they are named, or the memories read alike. -/
theorem Memory.read_storeAll_congr {m n : Memory} {cells : List (Addr × Byte)} {x : Nat}
    (hx : m.read x = n.read x ∨ ∃ y ∈ cells.map Prod.fst, y.toNat = x) :
    (m.storeAll cells).read x = (n.storeAll cells).read x := by
  induction cells generalizing m n with
  | nil => simpa [Memory.storeAll] using hx
  | cons cell rest ih =>
    obtain ⟨addr, v⟩ := cell
    rw [Memory.storeAll_cons, Memory.storeAll_cons]
    apply ih
    by_cases haddr : x = addr.toNat
    · exact .inl (by rw [haddr, Memory.read_write_same, Memory.read_write_same])
    · rw [Memory.read_write_other m v haddr, Memory.read_write_other n v haddr]
      simpa [Ne.symm haddr] using hx

/-! ### The state with another memory -/

/-- The last cell of a frame, reached as the second byte of its second word. -/
theorem add_two_add_one (addr : Addr) : addr + 2 + 1 = addr + 3 := by bv_omega

/-- The state with its memory exchanged for another. -/
def State.withMem (s : State) (m : Memory) : State := { s with mem := m }

@[simp] theorem State.withMem_a (s : State) (m : Memory) : (s.withMem m).a = s.a := rfl
@[simp] theorem State.withMem_b (s : State) (m : Memory) : (s.withMem m).b = s.b := rfl
@[simp] theorem State.withMem_pc (s : State) (m : Memory) : (s.withMem m).pc = s.pc := rfl
@[simp] theorem State.withMem_sp (s : State) (m : Memory) : (s.withMem m).sp = s.sp := rfl

@[simp] theorem State.withMem_indexed (s : State) (m : Memory) (base : Addr) :
    (s.withMem m).indexed base = s.indexed base := rfl

@[simp] theorem State.withMem_frameAddr (s : State) (m : Memory) (offset : Byte) :
    (s.withMem m).frameAddr offset = s.frameAddr offset := rfl

@[simp] theorem State.withMem_retBase (s : State) (m : Memory) : (s.withMem m).retBase = s.retBase := rfl

theorem State.withMem_readByte {s : State} {m : Memory} {y : Addr} (h : m.read y.toNat = s.mem.read y.toNat) :
    (s.withMem m).readByte y = s.readByte y := h

theorem State.withMem_readWord {s : State} {m : Memory} {y : Addr} (hlo : m.read y.toNat = s.mem.read y.toNat)
    (hhi : m.read (y + 1).toNat = s.mem.read (y + 1).toNat) : (s.withMem m).readWord y = s.readWord y := by
  rw [State.readWord, State.withMem_readByte hlo, State.withMem_readByte hhi, State.readWord]

/-- The pointer at `zp` depends on its two bytes only (20_memory.md R47). -/
theorem State.withMem_zpIndexed {s : State} {m : Memory} {zp : Byte}
    (hlo : m.read (zext16 zp).toNat = s.mem.read (zext16 zp).toNat)
    (hhi : m.read (zext16 zp + 1).toNat = s.mem.read (zext16 zp + 1).toNat) :
    (s.withMem m).zpIndexed zp = s.zpIndexed zp := by
  rw [State.zpIndexed_eq, State.zpIndexed_eq, State.withMem_readByte hlo, State.withMem_readByte hhi]
  rfl

theorem State.withMem_zpAddrs {s : State} {m : Memory} {zp : Byte}
    (hlo : m.read (zext16 zp).toNat = s.mem.read (zext16 zp).toNat)
    (hhi : m.read (zext16 zp + 1).toNat = s.mem.read (zext16 zp + 1).toNat) :
    (s.withMem m).zpAddrs zp = s.zpAddrs zp := by
  rw [State.zpAddrs_eq, State.zpAddrs_eq, State.withMem_zpIndexed hlo hhi]

theorem State.forall_mem_zpAddrs {s : State} {zp : Byte} {P : Addr → Prop} :
    (∀ y ∈ s.zpAddrs zp, P y) ↔ P (zext16 zp) ∧ P (zext16 zp + 1) ∧ P (s.zpIndexed zp) := by
  simp [State.zpAddrs_eq]

theorem forall_mem_fourFrom {addr : Addr} {P : Addr → Prop} :
    (∀ y ∈ fourFrom addr, P y) ↔ P addr ∧ P (addr + 1) ∧ P (addr + 2) ∧ P (addr + 3) := by
  simp [fourFrom]

/-- A jump neither reads nor writes memory (44_flow_control.md R170). -/
theorem State.withMem_jumpIf (s : State) (m : Memory) (cond : Bool) (addr : Addr) :
    (s.withMem m).jumpIf cond addr = (s.jumpIf cond addr).withMem m := by
  cases cond <;> rfl

/-! ### The meanings with data accesses, their checks in front -/

/-- 41_memory_ops.md R101. -/
theorem exec_movArMem (addr : Addr) (s : State) :
    exec (.movArMem addr) s = s.checked [addr] (.next ((s.setA (s.readByte addr)).advance 3)) := rfl

/-- 41_memory_ops.md R102. -/
theorem exec_movBrMem (addr : Addr) (s : State) :
    exec (.movBrMem addr) s = s.checked [addr] (.next ((s.setB (s.readByte addr)).advance 3)) := rfl

/-- 41_memory_ops.md R105. -/
theorem exec_movMemAr (addr : Addr) (s : State) :
    exec (.movMemAr addr) s = s.checked [addr] (.next ((s.writeByte addr s.a).advance 3)) := rfl

/-- 41_memory_ops.md R106. -/
theorem exec_movMemBr (addr : Addr) (s : State) :
    exec (.movMemBr addr) s = s.checked [addr] (.next ((s.writeByte addr s.b).advance 3)) := rfl

/-- 41_memory_ops.md R108. -/
theorem exec_ldo (addr : Addr) (s : State) :
    exec (.ldo addr) s =
      s.checked [s.indexed addr] (.next ((s.setA (s.readByte (s.indexed addr))).advance 3)) := rfl

/-- 41_memory_ops.md R109. -/
theorem exec_sto (addr : Addr) (s : State) :
    exec (.sto addr) s =
      s.checked [s.indexed addr] (.next ((s.writeByte (s.indexed addr) s.a).advance 3)) := rfl

/-- 41_memory_ops.md R110. -/
theorem exec_ldzAr (s : State) :
    exec .ldzAr s =
      s.checked (s.zpAddrs s.a) (.next ((s.setA (s.readByte (s.zpIndexed s.a))).advance 1)) := rfl

/-- 41_memory_ops.md R111. -/
theorem exec_ldzZp (zp : Byte) (s : State) :
    exec (.ldzZp zp) s =
      s.checked (s.zpAddrs zp) (.next ((s.setA (s.readByte (s.zpIndexed zp))).advance 2)) := rfl

/-- 41_memory_ops.md R112. -/
theorem exec_stzZp (zp : Byte) (s : State) :
    exec (.stzZp zp) s =
      s.checked (s.zpAddrs zp) (.next ((s.writeByte (s.zpIndexed zp) s.a).advance 2)) := rfl

/-- 42_stack_ops.md R121. -/
theorem exec_pushAr (s : State) :
    exec .pushAr s = s.checked [s.sp] (.next (((s.writeByte s.sp s.a).setSp (s.sp + 1)).advance 1)) := rfl

/-- 42_stack_ops.md R123. -/
theorem exec_pop (s : State) :
    exec .pop s =
      s.checked [s.sp - 1] (.next (((s.setA (s.readByte (s.sp - 1))).setSp (s.sp - 1)).advance 1)) := rfl

/-- 42_stack_ops.md R124. -/
theorem exec_peekBr (s : State) :
    exec .peekBr s =
      s.checked [s.frameAddr s.b] (.next ((s.setA (s.readByte (s.frameAddr s.b))).advance 1)) := rfl

/-- 42_stack_ops.md R125. -/
theorem exec_peekImm (imm : Byte) (s : State) :
    exec (.peekImm imm) s =
      s.checked [s.frameAddr imm] (.next ((s.setA (s.readByte (s.frameAddr imm))).advance 2)) := rfl

/-- 42_stack_ops.md R126. -/
theorem exec_pokeBr (s : State) :
    exec .pokeBr s =
      s.checked [s.frameAddr s.b] (.next ((s.writeByte (s.frameAddr s.b) s.a).advance 1)) := rfl

/-- 42_stack_ops.md R127. -/
theorem exec_pokeImm (imm : Byte) (s : State) :
    exec (.pokeImm imm) s =
      s.checked [s.frameAddr imm] (.next ((s.writeByte (s.frameAddr imm) s.a).advance 2)) := rfl

/-- The four cells of a frame that holds the words `w` and `v`, low bytes first (42_stack_ops.md R128). -/
def frameCells (addr w v : Addr) : List (Addr × Byte) :=
  [(addr, loByte w), (addr + 1, hiByte w), (addr + 2, loByte v), (addr + 3, hiByte v)]

/-- The two words `CALL` writes are the four cells of its frame. -/
theorem State.writeFrame_eq (s : State) (addr w v : Addr) :
    (s.writeWord addr w).writeWord (addr + 2) v = s.withMem (s.mem.storeAll (frameCells addr w v)) := by
  rw [State.writeWord, State.writeWord, add_two_add_one]
  rfl

/-- The state after a `CALL`: the frame stored, BP at its last cell, SP past it, PC at the operand. -/
def State.called (s : State) (addr : Addr) : State :=
  { s with mem := s.mem.storeAll (frameCells s.sp (s.pc + 3) s.bp), bp := s.sp + 3, sp := s.sp + 4, pc := addr }

/-- 42_stack_ops.md R128. -/
theorem exec_call (addr : Addr) (s : State) :
    exec (.call addr) s = s.checked (fourFrom s.sp) (.next (s.called addr)) := by
  change execCall addr s = _
  rw [execCall, State.writeFrame_eq]
  rfl

/-- 42_stack_ops.md R129. -/
theorem exec_ret (s : State) :
    exec .ret s = s.checked (fourFrom s.retBase)
      (.next { s with pc := s.readWord s.retBase, bp := s.readWord (s.retBase + 2), sp := s.retBase }) := rfl

/-! ### The cells an instruction stores -/

/-- The cells an instruction stores, in the order it stores them: `dataWrites` with the bytes. -/
def stores (i : Instr) (s : State) : List (Addr × Byte) :=
  match i with
  | .movMemAr addr => [(addr, s.a)]
  | .movMemBr addr => [(addr, s.b)]
  | .sto addr => [(s.indexed addr, s.a)]
  | .stzZp zp => [(s.zpIndexed zp, s.a)]
  | .pushAr => [(s.sp, s.a)]
  | .pushImm imm => [(s.sp, imm)]
  | .pokeBr => [(s.frameAddr s.b, s.a)]
  | .pokeImm imm => [(s.frameAddr imm, s.a)]
  | .call _ => frameCells s.sp (s.pc + 3) s.bp
  | _ => []

/-- The cells stored are those of the write footprint. -/
theorem map_fst_stores (i : Instr) (s : State) : (stores i s).map Prod.fst = dataWrites i s := by
  cases i <;> rfl

/-- `r` over the memory of `s` and `r'` over `m` are one checked next state that stores the same cells. -/
def SameStores (i : Instr) (s : State) (m : Memory) (r r' : Result) : Prop :=
  ∃ t, r = s.checked (dataReads i s ++ dataWrites i s) (.next t) ∧ t.mem = s.mem.storeAll (stores i s) ∧
    r' = s.checked (dataReads i s ++ dataWrites i s) (.next (t.withMem (m.storeAll (stores i s))))

/-- A jump makes no check and stores nothing. -/
theorem sameStores_jump {i : Instr} {s : State} {m : Memory} {cond : Bool} {addr : Addr}
    (hreads : dataReads i s = []) (hstores : stores i s = []) :
    SameStores i s m (.next (s.jumpIf cond addr)) (.next ((s.withMem m).jumpIf cond addr)) := by
  have hwrites : dataWrites i s = [] := by rw [← map_fst_stores, hstores, List.map_nil]
  refine ⟨s.jumpIf cond addr, ?_, ?_, ?_⟩
  · rw [hreads, hwrites]; rfl
  · rw [hstores, State.jumpIf_mem]; rfl
  · rw [hreads, hwrites, hstores, State.withMem_jumpIf]; rfl

/-- 20_memory.md R50 and R51: over another memory that agrees on the data bytes it reads, an instruction makes the same
checks, reaches the same registers, flags and console, and stores the same cells. -/
theorem sameStores_exec (i : Instr) (s : State) (m : Memory)
    (h : ∀ y ∈ dataReads i s, m.read y.toNat = s.mem.read y.toNat) :
    SameStores i s m (exec i s) (exec i (s.withMem m)) := by
  cases i with
  | movArMem addr =>
    rw [exec_movArMem, exec_movArMem, State.withMem_readByte (h _ (List.mem_singleton_self _))]
    exact ⟨_, rfl, rfl, rfl⟩
  | movBrMem addr =>
    rw [exec_movBrMem, exec_movBrMem, State.withMem_readByte (h _ (List.mem_singleton_self _))]
    exact ⟨_, rfl, rfl, rfl⟩
  | ldo addr =>
    rw [exec_ldo, exec_ldo, State.withMem_indexed, State.withMem_readByte (h _ (List.mem_singleton_self _))]
    exact ⟨_, rfl, rfl, rfl⟩
  | ldzAr =>
    obtain ⟨hlo, hhi, hea⟩ := State.forall_mem_zpAddrs.mp h
    rw [exec_ldzAr, exec_ldzAr, State.withMem_a, State.withMem_zpAddrs hlo hhi, State.withMem_zpIndexed hlo hhi,
      State.withMem_readByte hea]
    exact ⟨_, rfl, rfl, rfl⟩
  | ldzZp zp =>
    obtain ⟨hlo, hhi, hea⟩ := State.forall_mem_zpAddrs.mp h
    rw [exec_ldzZp, exec_ldzZp, State.withMem_zpAddrs hlo hhi, State.withMem_zpIndexed hlo hhi,
      State.withMem_readByte hea]
    exact ⟨_, rfl, rfl, rfl⟩
  | stzZp zp =>
    have ⟨hlo, hhi⟩ := List.forall_mem_cons.mp h
    rw [List.forall_mem_singleton] at hhi
    rw [exec_stzZp, exec_stzZp, State.withMem_zpAddrs hlo hhi, State.withMem_zpIndexed hlo hhi]
    exact ⟨_, rfl, rfl, rfl⟩
  | pop =>
    rw [exec_pop, exec_pop, State.withMem_sp, State.withMem_readByte (h _ (List.mem_singleton_self _))]
    exact ⟨_, rfl, rfl, rfl⟩
  | peekBr =>
    rw [exec_peekBr, exec_peekBr, State.withMem_frameAddr, State.withMem_b,
      State.withMem_readByte (h _ (List.mem_singleton_self _))]
    exact ⟨_, rfl, rfl, rfl⟩
  | peekImm imm =>
    rw [exec_peekImm, exec_peekImm, State.withMem_frameAddr,
      State.withMem_readByte (h _ (List.mem_singleton_self _))]
    exact ⟨_, rfl, rfl, rfl⟩
  | ret =>
    obtain ⟨h0, h1, h2, h3⟩ := forall_mem_fourFrom.mp h
    rw [← add_two_add_one s.retBase] at h3
    rw [exec_ret, exec_ret, State.withMem_retBase, State.withMem_readWord h0 h1, State.withMem_readWord h2 h3]
    exact ⟨_, rfl, rfl, rfl⟩
  | call addr =>
    rw [exec_call, exec_call]
    exact ⟨_, rfl, rfl, rfl⟩
  | jmp | jz | jnz | jm | jp | jc | jnc | jof | jnof => exact sameStores_jump rfl rfl
  | _ => exact ⟨_, rfl, rfl, rfl⟩

end Sys2Proof.Machine
end

section
/-! Proofs of the statements about what every instruction does to memory, and of the canonical form. -/

namespace Sys2Proof.Machine

/-- An instruction that completes had its footprint implemented, and memory is the old one with its cells stored. -/
theorem exec_next_stores {i : Instr} {s t : State} (h : exec i s = .next t) :
    (∀ y ∈ dataReads i s ++ dataWrites i s, inRange y = true) ∧ t.mem = s.mem.storeAll (stores i s) := by
  obtain ⟨u, hexec, hmem, _⟩ := sameStores_exec i s s.mem (fun _ _ => rfl)
  obtain ⟨hrange, hnext⟩ := State.checked_next _ _ _ _ (hexec.symm.trans h)
  cases hnext
  exact ⟨hrange, hmem⟩

/-! ### The canonical form -/

theorem exec_next_wf {i : Instr} {s t : State} (hs : s.mem.wf = true) (h : exec i s = .next t) : t.mem.wf = true := by
  obtain ⟨hrange, hmem⟩ := exec_next_stores h
  rw [hmem]
  refine Memory.storeAll_wf hs fun y hy => hrange y (List.mem_append_right _ ?_)
  rwa [← map_fst_stores]

/-- Settles O32: a step that answers a next state runs one instruction, and an instruction changes memory by stores to
implemented addresses only. -/
theorem stepKeepsMemoryCanonical : Obligations.StepKeepsMemoryCanonical := by
  intro s t hs hstep
  obtain ⟨i, _, hexec⟩ := step_next hstep
  exact exec_next_wf hs hexec

/-- Settles O33: the start of a run has the image for its memory, and that of the reset state is empty. -/
theorem resetMemoryIsCanonical : Obligations.ResetMemoryIsCanonical :=
  ⟨fun _ _ himage => himage, Memory.wf_nil⟩

theorem Memory.wf_of_wf_cons {k : Nat} {v : Byte} {m : Memory} (h : Memory.wf ((k, v) :: m) = true) : m.wf = true := by
  obtain ⟨_, _, _, hm⟩ := (Memory.wf_cons k v m).mp h
  exact hm

/-- Below every listed address a memory reads as unlisted. -/
theorem Memory.read_of_forall_lt {m : Memory} {x : Nat} (h : ∀ cell ∈ m, x < cell.1) : m.read x = unlistedByte := by
  induction m with
  | nil => rfl
  | cons cell rest ih =>
    obtain ⟨k, v⟩ := cell
    rw [List.forall_mem_cons] at h
    rw [Memory.read_cons, if_neg (Nat.ne_of_gt h.1), ih h.2]

/-- Two canonical memories whose first addresses are `k < l` read differently at `k`. -/
theorem Memory.read_ne_of_lt {k l : Nat} {v w : Byte} {m n : Memory} (hm : Memory.wf ((k, v) :: m) = true)
    (hn : Memory.wf ((l, w) :: n) = true) (hkl : k < l) :
    Memory.read ((k, v) :: m) k ≠ Memory.read ((l, w) :: n) k := by
  obtain ⟨_, hv, _, _⟩ := (Memory.wf_cons k v m).mp hm
  obtain ⟨_, _, hrest, _⟩ := (Memory.wf_cons l w n).mp hn
  have hunlisted : Memory.read ((l, w) :: n) k = unlistedByte :=
    Memory.read_of_forall_lt (List.forall_mem_cons.mpr ⟨hkl, fun cell hcell => hkl.trans (hrest cell hcell)⟩)
  rw [hunlisted, Memory.read_cons, if_pos rfl]
  exact hv

/-- A canonical memory with an entry does not read as the empty one there. -/
theorem Memory.read_cons_ne_nil {k : Nat} {v : Byte} {m : Memory} (hm : Memory.wf ((k, v) :: m) = true) :
    Memory.read ((k, v) :: m) k ≠ Memory.read [] k := by
  obtain ⟨_, hv, _, _⟩ := (Memory.wf_cons k v m).mp hm
  rw [Memory.read_cons, if_pos rfl]
  exact hv

/-- If two canonical memories with the same first address read alike, so do their first bytes and their rests. -/
theorem Memory.read_tail_eq {k : Nat} {v w : Byte} {m n : Memory} (hm : Memory.wf ((k, v) :: m) = true)
    (hn : Memory.wf ((k, w) :: n) = true) (h : ∀ x, Memory.read ((k, v) :: m) x = Memory.read ((k, w) :: n) x) :
    v = w ∧ ∀ x, m.read x = n.read x := by
  obtain ⟨_, _, hm', _⟩ := (Memory.wf_cons k v m).mp hm
  obtain ⟨_, _, hn', _⟩ := (Memory.wf_cons k w n).mp hn
  refine ⟨by simpa using h k, fun x => ?_⟩
  by_cases hx : k = x
  · subst hx
    rw [Memory.read_of_forall_lt hm', Memory.read_of_forall_lt hn']
  · simpa [hx] using h x

/-- Settles O34: by induction on both lists; the first addresses are equal, for at the lower one only one memory would
list a byte. -/
theorem canonicalMemoriesThatReadAlikeAreEqual : Obligations.CanonicalMemoriesThatReadAlikeAreEqual := by
  intro m
  induction m with
  | nil =>
    intro n _ hn h
    cases n with
    | nil => rfl
    | cons cell n => exact absurd (h cell.1).symm (Memory.read_cons_ne_nil hn)
  | cons cell m ih =>
    intro n hm hn h
    obtain ⟨k, v⟩ := cell
    cases n with
    | nil => exact absurd (h k) (Memory.read_cons_ne_nil hm)
    | cons cell n =>
      obtain ⟨l, w⟩ := cell
      rcases Nat.lt_trichotomy k l with hkl | rfl | hlk
      · exact absurd (h k) (Memory.read_ne_of_lt hm hn hkl)
      · obtain ⟨rfl, hrest⟩ := Memory.read_tail_eq hm hn h
        rw [ih n (Memory.wf_of_wf_cons hm) (Memory.wf_of_wf_cons hn) hrest]
      · exact absurd (h l).symm (Memory.read_ne_of_lt hn hm hlk)

/-! ### The write footprint and the checks -/

/-- Settles O27: the cells stored are those of the write footprint. -/
theorem storesStayInsideWriteFootprint : Obligations.StoresStayInsideWriteFootprint := by
  intro i s t h x hx
  rw [(exec_next_stores h).2]
  exact Memory.read_storeAll_of_forall_ne (by rwa [map_fst_stores])

theorem implemented_iff (addr : Addr) : Implemented addr ↔ inRange addr = true :=
  (inRange_iff addr).symm

theorem not_implemented_iff (addr : Addr) : ¬ Implemented addr ↔ inRange addr = false := by
  rw [implemented_iff, Bool.not_eq_true]

/-- Settles O28: an instruction is one checked next state over its footprint, and the checks raise the fault of the
first address that is not implemented. -/
theorem execCompletesIffFootprintImplemented : Obligations.ExecCompletesIffFootprintImplemented := by
  intro i s
  obtain ⟨t, ht⟩ := exec_eq_checked i s
  simp only [implemented_iff, ← firstOutOfRange_none]
  rw [ht, State.checked_eq_first]
  cases firstOutOfRange (dataReads i s ++ dataWrites i s) with
  | none => simp
  | some y => simp [eq_comm]

/-! ### Another memory -/

/-- The opcode byte is one of the bytes fetched. -/
theorem State.pc_mem_fetchAddrs (s : State) : s.pc ∈ s.fetchAddrs := by
  unfold State.fetchAddrs
  split <;> exact List.mem_cons_self

/-- So are the operand bytes of a defined opcode. -/
theorem State.operandAddrs_subset_fetchAddrs {s : State} {form : Form}
    (hform : opcodeForm (s.readByte s.pc) = some form) :
    operandAddrs s.pc (form.format.length - 1) ⊆ s.fetchAddrs := by
  unfold State.fetchAddrs
  rw [hform]
  exact List.subset_cons_self _ _

/-- A fetch depends on memory only through the bytes it fetches (20_memory.md R48). -/
theorem State.withMem_fetch {s : State} {m : Memory} (h : ∀ y ∈ s.fetchAddrs, m.read y.toNat = s.mem.read y.toNat) :
    (s.withMem m).fetch = s.fetch := by
  have hop : (s.withMem m).readByte s.pc = s.readByte s.pc := State.withMem_readByte (h _ s.pc_mem_fetchAddrs)
  unfold State.fetch
  rw [State.withMem_pc, hop]
  cases hform : opcodeForm (s.readByte s.pc) with
  | none => rfl
  | some form =>
    have hoperands : (operandAddrs s.pc (form.format.length - 1)).map (s.withMem m).readByte =
        (operandAddrs s.pc (form.format.length - 1)).map s.readByte :=
      List.map_congr_left fun y hy =>
        State.withMem_readByte (h y (State.operandAddrs_subset_fetchAddrs hform hy))
    simp only [hoperands]

/-- Next states `t` of `s` and `t'` of `s.withMem m` that differ in memory only, hold the same bytes where the fetched
instruction writes, and of which `t'` holds the bytes of `m` elsewhere. -/
def SameBytesWritten (s : State) (m : Memory) (t t' : State) : Prop :=
  t' = { t with mem := t'.mem } ∧
    ∀ i, s.fetch = .ok i →
      (∀ y ∈ dataWrites i s, t'.mem.read y.toNat = t.mem.read y.toNat) ∧
      (∀ x : Nat, (∀ y ∈ dataWrites i s, y.toNat ≠ x) → t'.mem.read x = m.read x)

/-- Storing the cells of the fetched instruction in both memories brings that about. -/
theorem sameBytesWritten_of_stores {i : Instr} {s t : State} {m : Memory} (hfetch : s.fetch = .ok i)
    (ht : t.mem = s.mem.storeAll (stores i s)) :
    SameBytesWritten s m t (t.withMem (m.storeAll (stores i s))) := by
  refine ⟨rfl, fun j hj => ?_⟩
  obtain rfl : i = j := Except.ok.inj (hfetch.symm.trans hj)
  rw [← map_fst_stores]
  refine ⟨fun y hy => ?_, fun x hx => Memory.read_storeAll_of_forall_ne hx⟩
  rw [ht]
  exact Memory.read_storeAll_congr (.inr ⟨y, hy, rfl⟩)

/-- The same checks before two related next states, at the same PC, give related outcomes. -/
theorem sameOutcome_checked {related : State → State → Prop} {s s' t t' : State} (hpc : s'.pc = s.pc)
    (addrs : List Addr) (h : related t t') :
    SameOutcome related (s.checked addrs (.next t)) (s'.checked addrs (.next t')) := by
  rw [State.checked_eq_first, State.checked_eq_first, hpc]
  cases firstOutOfRange addrs with
  | none => exact h
  | some y => exact rfl

/-- Settles O31: the fetch finds the same instruction, and the instruction makes the same checks and stores the same
cells. -/
theorem stepDependsOnlyOnBytesItReads : Obligations.StepDependsOnlyOnBytesItReads := by
  intro s m hfetch hdata
  change SameOutcome (SameBytesWritten s m) (step s) (step (s.withMem m))
  unfold step
  rw [State.withMem_fetch hfetch]
  cases hs : s.fetch with
  | error f => exact rfl
  | ok i =>
    obtain ⟨t, hexec, ht, hexec'⟩ := sameStores_exec i s m (hdata i hs)
    simp only [hexec, hexec']
    exact sameOutcome_checked rfl _ (sameBytesWritten_of_stores hs ht)

end Sys2Proof.Machine
end

section
/-! Proofs of the statements about encoding, decoding and the written form (30_encoding.md). -/

namespace Sys2Proof

open Machine

/-! ### What an opcode's form makes of its operand bytes -/

/-- The instruction `i` is what a form makes of exactly these operand bytes (30_encoding.md R73, R74). -/
inductive Form.Builds : Form → List Byte → Instr → Prop
  | f1 (i : Instr) : Form.Builds (.f1 i) [] i
  | f2i (make : Byte → Instr) (imm : Byte) : Form.Builds (.f2i make) [imm] (make imm)
  | f2z (make : Byte → Instr) (zp : Byte) : Form.Builds (.f2z make) [zp] (make zp)
  | f3 (make : Addr → Instr) (addr : Addr) : Form.Builds (.f3 make) (addrBytes addr) (make addr)

/-- The two bytes of an address in memory order, low byte first (20_memory.md R46). -/
theorem addrBytes_eq (addr : Addr) : addrBytes addr = [loByte addr, hiByte addr] := rfl

theorem orderPair_operand_eq (first second : Byte) :
    orderPair Config.operandLowFirst first second = joinBytes second first := rfl

theorem addrBytes_joinBytes (hi lo : Byte) : addrBytes (joinBytes hi lo) = [lo, hi] := by
  rw [addrBytes_eq, loByte_joinBytes, hiByte_joinBytes]

/-- Bytes built into an instruction decode to it, and what follows them is left. -/
theorem decode_of_builds {op : Byte} {form : Form} {operands : List Byte} {i : Instr} (rest : List Byte)
    (hform : opcodeForm op = some form) (hbuilds : form.Builds operands i) :
    decode (op :: operands ++ rest) = .ok (i, rest) := by
  cases hbuilds with
  | f1 => simp [decode, hform]
  | f2i => simp [decode, hform]
  | f2z => simp [decode, hform]
  | f3 make addr => simp [decode, hform, addrBytes_eq, orderPair_operand_eq]

/-- Bytes that decode to an instruction begin with an opcode and the operand bytes that its form builds it from. -/
theorem builds_of_decode {bytes rest : List Byte} {i : Instr} (h : decode bytes = .ok (i, rest)) :
    ∃ op form operands, opcodeForm op = some form ∧ form.Builds operands i ∧ bytes = op :: operands ++ rest := by
  unfold decode at h
  split at h
  · cases h
  next op tail =>
    split at h
    · cases h
    next hform => cases h; exact ⟨op, _, [], hform, .f1 _, rfl⟩
    next make hform =>
      split at h
      next imm tail => cases h; exact ⟨op, _, [imm], hform, .f2i make imm, rfl⟩
      · cases h
    next make hform =>
      split at h
      next zp tail => cases h; exact ⟨op, _, [zp], hform, .f2z make zp, rfl⟩
      · cases h
    next make hform =>
      split at h
      next lo hi tail =>
        cases h
        refine ⟨op, _, addrBytes (joinBytes hi lo), hform, .f3 make _, ?_⟩
        rw [addrBytes_joinBytes]
        rfl
      · cases h

/-! ### The rows of the table -/

/-- Each instruction's encoding is an opcode of the table and the operand bytes its form builds it from. -/
theorem encode_builds (i : Instr) :
    ∃ op form operands, opcodeForm op = some form ∧ form.Builds operands i ∧ encode i = op :: operands := by
  cases i with
  | swp | ldzAr | ioAr | ioBr | pushAr | pop | peekBr | pokeBr | ret | addBr | subBr | clc | shl | shr | incAr
  | incBr | decAr | decBr | andBr | orBr | xorBr | notA => exact ⟨_, _, _, rfl, .f1 _, rfl⟩
  | ldzZp zp | stzZp zp => exact ⟨_, _, _, rfl, .f2z _ zp, rfl⟩
  | movArImm imm | movBrImm imm | pushImm imm | peekImm imm | pokeImm imm | addImm imm | subImm imm | andImm imm
  | orImm imm | xorImm imm => exact ⟨_, _, _, rfl, .f2i _ imm, rfl⟩
  | movArMem addr | movBrMem addr | movMemAr addr | movMemBr addr | ldo addr | sto addr | call addr | jmp addr
  | jz addr | jnz addr | jm addr | jp addr | jc addr | jnc addr | jof addr | jnof addr =>
    exact ⟨_, _, _, rfl, .f3 _ addr, rfl⟩

theorem eq_ofNat_of_toNat_eq {op : Byte} {n : Nat} (h : op.toNat = n) : op = BitVec.ofNat 8 n := by
  rw [← h, BitVec.ofNat_toNat, BitVec.setWidth_eq]

/-- What a row of the table builds is encoded by that row: no instruction is in two rows. -/
theorem encode_of_builds {op : Byte} {form : Form} {operands : List Byte} {i : Instr}
    (hform : opcodeForm op = some form) (hbuilds : form.Builds operands i) : encode i = op :: operands := by
  unfold opcodeForm at hform
  split at hform
  case h_51 => cases hform
  all_goals
    next hop =>
      obtain rfl := eq_ofNat_of_toNat_eq hop
      cases hform
      cases hbuilds
      rfl

/-- Each instruction is written in one of its mnemonic's forms (30_encoding.md R86). -/
theorem wellFormed_all (i : Instr) : i.wellFormed = true := by
  cases i <;> rfl

/-- Settles O35: both directions go through the row of the opcode table and the operand bytes its form takes. -/
theorem decodeAndEncodeAreInverse : Obligations.DecodeAndEncodeAreInverse := by
  refine ⟨fun i rest _ => ?decodeEncode, fun bytes rest i h => ⟨wellFormed_all i, ?encodeDecode⟩⟩
  case decodeEncode =>
    obtain ⟨op, form, operands, hform, hbuilds, hencode⟩ := encode_builds i
    rw [hencode]
    exact decode_of_builds rest hform hbuilds
  case encodeDecode =>
    obtain ⟨op, form, operands, hform, hbuilds, hbytes⟩ := builds_of_decode h
    rw [hbytes, encode_of_builds hform hbuilds]

end Sys2Proof
end

section
/-! Proofs of the statements about the written form and the opcode table (30_encoding.md sections 1, 3, 4 and 5). -/

namespace Sys2Proof

open Machine

/-! ### The written form -/

/-- The assembler reads an instruction from its spelling (30_encoding.md R85). -/
theorem assemble_spelling (i : Instr) : assemble i.spelling = some i := by
  cases i <;> rfl

/-- It reads no other source as that instruction: each arm of `assemble` answers the instruction spelled so. -/
theorem spelling_of_assemble {src : SourceInstr} {i : Instr} (h : assemble src = some i) : i.spelling = src := by
  obtain ⟨mnemonic, operands⟩ := src
  unfold assemble at h
  cases mnemonic
  all_goals
    simp only at h
    split at h
    all_goals cases h
    all_goals rfl

theorem Operand.kind_eq_ar {o : Operand} : o.kind = .ar ↔ o = .ar := by
  cases o <;> simp [Operand.kind]

theorem Operand.kind_eq_br {o : Operand} : o.kind = .br ↔ o = .br := by
  cases o <;> simp [Operand.kind]

theorem Operand.kind_eq_mem {o : Operand} : o.kind = .mem ↔ ∃ addr, o = .mem addr := by
  cases o <;> simp [Operand.kind]

theorem Operand.kind_eq_immed {o : Operand} : o.kind = .immed ↔ ∃ imm, o = .immed imm := by
  cases o <;> simp [Operand.kind]

theorem Operand.kind_eq_zeroPage {o : Operand} : o.kind = .zeroPage ↔ ∃ zp, o = .zeroPage zp := by
  cases o <;> simp [Operand.kind]

theorem SourceInstr.wellFormed_iff (src : SourceInstr) :
    src.wellFormed = true ↔ src.operands.map Operand.kind ∈ src.mnemonic.forms := by
  simp [SourceInstr.wellFormed]

/-- Every form of a mnemonic has an opcode (30_encoding.md R86). -/
theorem exists_assemble_of_wellFormed {src : SourceInstr} (h : src.wellFormed = true) : ∃ i, assemble src = some i := by
  rw [SourceInstr.wellFormed_iff] at h
  obtain ⟨mnemonic, operands⟩ := src
  cases mnemonic with
    simp only [Mnemonic.forms, List.mem_cons, List.not_mem_nil, or_false, List.map_eq_cons_iff, List.map_eq_nil_iff,
      Operand.kind_eq_ar, Operand.kind_eq_br, Operand.kind_eq_mem, Operand.kind_eq_immed, Operand.kind_eq_zeroPage,
      exists_eq_right_right, exists_eq_right, exists_and_right, ↓existsAndEq, and_true] at h
  | swp | pop | ret | clc | shl | shr | notA => subst h; exact ⟨_, rfl⟩
  | ldo | sto | stz | call | jmp | jz | jnz | jm | jp | jc | jnc | jof | jnof =>
    obtain ⟨_, rfl⟩ := h
    exact ⟨_, rfl⟩
  | io | inc | dec => obtain rfl | rfl := h <;> exact ⟨_, rfl⟩
  | ldz | push | peek | poke | and | or | xor => obtain rfl | ⟨_, rfl⟩ := h <;> exact ⟨_, rfl⟩
  | add | sub => obtain ⟨_, rfl⟩ | rfl := h <;> exact ⟨_, rfl⟩
  | mov =>
    obtain ⟨_, rfl⟩ | ⟨_, rfl⟩ | ⟨_, rfl⟩ | ⟨_, rfl⟩ | ⟨_, rfl⟩ | ⟨_, rfl⟩ := h <;> exact ⟨_, rfl⟩

/-- Settles O40: the assembler inverts the spelling, and what it reads is spelled in a form of its mnemonic. -/
theorem spellingsSelectInstructions : Obligations.SpellingsSelectInstructions := by
  refine ⟨fun src i => ⟨spelling_of_assemble, fun h => h ▸ assemble_spelling i⟩, fun src => ?_⟩
  rw [Bool.eq_iff_iff, Option.isSome_iff_exists]
  refine ⟨fun ⟨i, hi⟩ => ?_, exists_assemble_of_wellFormed⟩
  rw [← spelling_of_assemble hi]
  exact wellFormed_all i

/-! ### The opcode table -/

/-- 30_encoding.md R70: the class is the high nibble and the modifier the low one. -/
theorem toNat_opcodeOf (c : OpcodeClass) (m : Modifier) :
    (opcodeOf c m).toNat = 16 * c.nibble.toNat + m.nibble.toNat := by
  have hm : m.nibble.toNat < 2 ^ 4 := m.nibble.isLt
  rw [opcodeOf, BitVec.toNat_append, ← Nat.shiftLeft_add_eq_or_of_lt hm, Nat.shiftLeft_eq, Nat.mul_comm]

/-- Settles O39: the nibbles are those of the instruction's row, and any two nibbles make a byte so. -/
theorem classAndModifierMakeOpcode : Obligations.ClassAndModifierMakeOpcode := by
  refine fun i => ⟨?_, toNat_opcodeOf _ _⟩
  cases i <;> simp [encode, symbolsOf, opcodeOf, OpcodeClass.nibble, Modifier.nibble]

/-- Settles O36: each word's first byte selects a row, and the bytes after it are the operand. -/
theorem wordsDecodeAsListed : Obligations.WordsDecodeAsListed :=
  ⟨rfl, rfl, rfl, rfl, rfl, rfl, rfl, rfl, rfl, rfl⟩

/-- Settles O37: a finite table, evaluated row by row. -/
theorem opcodeTableRowsHold : Obligations.OpcodeTableRowsHold := by
  unfold Obligations.OpcodeTableRowsHold
  exact ⟨by decide, rfl, by decide⟩

/-- The ranges of undefined opcode bytes, first and last byte (30_encoding.md R78). -/
def undefinedRanges : List (Nat × Nat) :=
  [(0x00, 0x00), (0x0D, 0x0F), (0x10, 0x12), (0x16, 0x1F), (0x20, 0x20), (0x2E, 0x2E), (0x2F, 0x2F), (0x30, 0x30),
   (0x33, 0x3F), (0x40, 0x42), (0x45, 0x4F), (0x50, 0x7F), (0x80, 0x80), (0x82, 0x84), (0x8D, 0x8D), (0x8F, 0x8F),
   (0x90, 0x90), (0x92, 0x9F), (0xA0, 0xA0), (0xA2, 0xAF), (0xB0, 0xB0), (0xB2, 0xBF), (0xC0, 0xC0), (0xC2, 0xCF),
   (0xD0, 0xD0), (0xD3, 0xDF), (0xE0, 0xE0), (0xE3, 0xEF), (0xF0, 0xFF)]

/-- Whether a byte value is in one of those ranges. -/
def inUndefinedRanges (n : Nat) : Bool :=
  undefinedRanges.any (fun r => decide (r.1 ≤ n) && decide (n ≤ r.2))

/-- A finite check of the 256 values of an opcode byte, by class and modifier nibble. -/
theorem opcodeForm_isSome_nibbles : ∀ hi < 16, ∀ lo < 16,
    (opcodeForm (BitVec.ofNat 8 (16 * hi + lo))).isSome = !inUndefinedRanges (16 * hi + lo) := by
  decide

theorem opcodeForm_isSome_of_lt {n : Nat} (hn : n < 256) :
    (opcodeForm (BitVec.ofNat 8 n)).isSome = !inUndefinedRanges n := by
  have hnibbles := opcodeForm_isSome_nibbles (n / 16) (by omega) (n % 16) (by omega)
  rwa [Nat.div_add_mod] at hnibbles

/-- Settles O38: the listed ranges are the values that have no row. -/
theorem undefinedOpcodesAsListed : Obligations.UndefinedOpcodesAsListed := by
  refine ⟨by decide, fun n hn => ?_⟩
  rw [opcodeForm_isSome_of_lt hn, Bool.not_eq_false']
  simp only [inUndefinedRanges, undefinedRanges, List.any_cons, List.any_nil, Bool.or_false, Bool.or_eq_true,
    Bool.and_eq_true, decide_eq_true_eq, Nat.le_antisymm_iff, and_comm]

end Sys2Proof
end

section
/-! Proofs of the statements about the stack instructions (42_stack_ops.md). -/

namespace Sys2Proof.Machine

/-! ### The checks at implemented addresses, and at one that is not -/

theorem State.checked_of_implemented (s : State) (addrs : List Addr) (r : Result)
    (h : ∀ y ∈ addrs, Implemented y) : s.checked addrs r = r :=
  State.checked_of_inRange s addrs r fun y hy => (implemented_iff y).mp (h y hy)

theorem State.checked_of_first {s : State} {addrs : List Addr} {y : Addr} (t : State)
    (h : firstOutOfRange addrs = some y) : s.checked addrs (.next t) = .fault (.accessOutOfRange s.pc y) := by
  rw [State.checked_eq_first, h]

/-! ### `CALL` and `RET` -/

/-- What the cells of a stored frame read as (42_stack_ops.md R128). -/
theorem State.read_frameCells (s : State) (addr w v x : Addr) :
    (s.mem.storeAll (frameCells addr w v)).read x.toNat =
      if x = addr + 3 then hiByte v else if x = addr + 2 then loByte v else
      if x = addr + 1 then hiByte w else if x = addr then loByte w else s.mem.read x.toNat := by
  have hframe := State.writeFrame_readByte s addr w v x
  rwa [State.writeFrame_eq] at hframe

theorem State.read_frameCells_cells (s : State) (addr w v : Addr) :
    (s.mem.storeAll (frameCells addr w v)).read addr.toNat = loByte w ∧
    (s.mem.storeAll (frameCells addr w v)).read (addr + 1).toNat = hiByte w ∧
    (s.mem.storeAll (frameCells addr w v)).read (addr + 2).toNat = loByte v ∧
    (s.mem.storeAll (frameCells addr w v)).read (addr + 3).toNat = hiByte v := by
  simp only [State.read_frameCells]
  simp

/-- Settles O13: the four checks are those of the frame, and the frame is all that is stored. -/
theorem callSavesFrame : Obligations.CallSavesFrame := by
  intro addr s
  rw [exec_call]
  refine ⟨fun himp => ?saves, fun y hy => State.checked_of_first _ hy⟩
  case saves =>
    obtain ⟨h0, h1, h2, h3⟩ := s.read_frameCells_cells s.sp (s.pc + 3) s.bp
    refine ⟨_, State.checked_of_implemented s _ _ himp, h0, h1, h2, h3, fun x hx => ?_⟩
    exact Memory.read_storeAll_of_forall_ne fun y hy => (hx y hy).symm

/-- The four cells of the frame at BP - 3 (42_stack_ops.md R129). -/
theorem fourFrom_sub_three (bp : Addr) : fourFrom (bp - 3) = [bp - 3, bp - 2, bp - 1, bp] := by
  have h1 : bp - 3 + 1 = bp - 2 := by bv_omega
  have h2 : bp - 3 + 2 = bp - 1 := by bv_omega
  have h3 : bp - 3 + 3 = bp := by bv_omega
  rw [fourFrom, h1, h2, h3]

theorem State.readWord_eq (s : State) (addr : Addr) :
    s.readWord addr = joinBytes (s.mem.read (addr + 1).toNat) (s.mem.read addr.toNat) := rfl

/-- Settles O14: the frame is found from BP, and its two words are read low byte first. -/
theorem retRestoresFrame : Obligations.RetRestoresFrame := by
  intro s
  rw [exec_ret, State.retBase_eq, fourFrom_sub_three]
  refine ⟨fun h3 h2 h1 h0 => ?restores, fun y hy => State.checked_of_first _ hy⟩
  case restores =>
    have hpc : s.bp - 3 + 1 = s.bp - 2 := by bv_omega
    have hbpLo : s.bp - 3 + 2 = s.bp - 1 := by bv_omega
    have hbpHi : s.bp - 1 + 1 = s.bp := by bv_omega
    have himp : ∀ y ∈ [s.bp - 3, s.bp - 2, s.bp - 1, s.bp], Implemented y := by
      simp only [List.forall_mem_cons]
      exact ⟨h3, h2, h1, h0, List.forall_mem_nil _⟩
    rw [State.checked_of_implemented _ _ _ himp, State.readWord_eq, State.readWord_eq, hpc,
      hbpLo, hbpHi]

/-- Settles O15: `RET` starts from the frame that `CALL` stored, and joins the bytes that it split. -/
theorem retUndoesCall : Obligations.RetUndoesCall := by
  intro addr s t u hcall hbp hframe
  rw [exec_call] at hcall
  obtain ⟨hrange, hnext⟩ := State.checked_next _ _ _ _ hcall
  cases hnext
  have hbase : u.retBase = s.sp := by
    rw [State.retBase_eq, hbp]
    exact BitVec.add_sub_cancel s.sp 3
  obtain ⟨h0, h1, h2, h3⟩ := s.read_frameCells_cells s.sp (s.pc + 3) s.bp
  obtain ⟨k0, k1, k2, k3⟩ := forall_mem_fourFrom.mp hframe
  have hpc : u.readWord s.sp = s.pc + 3 := by
    rw [State.readWord_eq, k0.trans h0, k1.trans h1, joinBytes_hi_lo]
  have hbp' : u.readWord (s.sp + 2) = s.bp := by
    rw [State.readWord_eq, add_two_add_one, k2.trans h2, k3.trans h3, joinBytes_hi_lo]
  rw [exec_ret, hbase, State.checked_of_inRange u _ _ hrange, hpc, hbp']

/-! ### The frame with its arguments and locals -/

/-- What follows a sequence that answers a next state runs from there. -/
theorem execAll_append {is js : List Instr} {s t : State} (h : execAll is s = .next t) :
    execAll (is ++ js) s = execAll js t := by
  induction is generalizing s with
  | nil => cases h; rfl
  | cons i is ih =>
    rw [execAll] at h
    rw [List.cons_append, execAll]
    split at h
    next u hu => exact ih h
    next hu => cases h
    next hu => cases h

theorem execAll_cons {i : Instr} {is : List Instr} {s t : State} (h : exec i s = .next t) :
    execAll (i :: is) s = execAll is t := by
  rw [execAll, h]

/-- `t` is `s` after pushing the bytes `vs`: SP is past them, they stand from the old SP on, and below it memory is
as it was. -/
structure Pushed (vs : List Byte) (s t : State) : Prop where
  sp : t.sp.toNat = s.sp.toNat + vs.length
  bp : t.bp = s.bp
  bytes : ∀ (i : Nat) (v : Byte), vs[i]? = some v → t.mem.read (s.sp.toNat + i) = v
  below : ∀ x < s.sp.toNat, t.mem.read x = s.mem.read x

theorem toNat_add_of_lt {addr : Addr} {n : Nat} (h : addr.toNat + n < 65536) :
    (addr + BitVec.ofNat 16 n).toNat = addr.toNat + n := by
  rw [BitVec.toNat_add, BitVec.toNat_ofNat]
  omega

theorem Pushed.cons {v : Byte} {vs : List Byte} {s t : State} (hsp : s.sp.toNat < 0x4000)
    (h : Pushed vs { s with mem := s.mem.write s.sp.toNat v, sp := s.sp + 1, pc := s.pc + 2 } t) :
    Pushed (v :: vs) s t := by
  have hnext : (s.sp + 1).toNat = s.sp.toNat + 1 := toNat_add_of_lt (n := 1) (by omega)
  obtain ⟨hsp', hbp, hbytes, hbelow⟩ := h
  simp only [hnext] at hsp' hbytes hbelow
  refine ⟨by rw [hsp', List.length_cons]; omega, hbp, fun i w hi => ?_, fun x hx => ?_⟩
  · cases i with
    | zero =>
      rw [List.getElem?_cons_zero, Option.some_inj] at hi
      rw [Nat.add_zero, hbelow _ (Nat.lt_succ_self _), Memory.read_write_same, hi]
    | succ i =>
      rw [List.getElem?_cons_succ] at hi
      rw [← hbytes i w hi, Nat.add_right_comm, Nat.add_assoc]
  · rw [hbelow x (by omega), Memory.read_write_other _ _ (by omega)]

/-- 42_stack_ops.md R122, once for each byte. -/
theorem execAll_pushes (vs : List Byte) (s : State) (h : s.sp.toNat + vs.length ≤ 0x4000) :
    ∃ t, execAll (vs.map Instr.pushImm) s = .next t ∧ Pushed vs s t := by
  induction vs generalizing s with
  | nil => exact ⟨s, rfl, rfl, rfl, by simp, fun _ _ => rfl⟩
  | cons v vs ih =>
    rw [List.length_cons] at h
    have hsp : s.sp.toNat < 0x4000 := by omega
    have hnext : (s.sp + 1).toNat = s.sp.toNat + 1 := toNat_add_of_lt (n := 1) (by omega)
    have hrange : inRange s.sp = true := (implemented_iff s.sp).mp (Nat.le_of_lt_succ hsp)
    obtain ⟨t, ht, hpushed⟩ :=
      ih { s with mem := s.mem.write s.sp.toNat v, sp := s.sp + 1, pc := s.pc + 2 } (by simp only [hnext]; omega)
    refine ⟨t, ?_, hpushed.cons hsp⟩
    rw [List.map_cons, execAll_cons (exec_pushImm_of_inRange v s hrange), ht]

/-- A `PEEK` at an implemented address whose byte is known. -/
theorem exec_peekImm_of_read {imm v : Byte} {s : State} (himp : Implemented (s.frameAddr imm))
    (hread : s.mem.read (s.frameAddr imm).toNat = v) :
    exec (.peekImm imm) s = .next { s with a := v, pc := s.pc + 2 } := by
  rw [exec_peekImm, State.checked_singleton_of_inRange _ _ ((implemented_iff _).mp himp), ← hread]
  rfl

/-- 42_stack_ops.md R120 (c): an offset below 0x80 is added to BP. -/
theorem State.toNat_frameAddr_of_lt {s : State} {k : Nat} (hk : k < 128) (hbp : s.bp.toNat + k < 65536) :
    (s.frameAddr (BitVec.ofNat 8 k)).toNat = s.bp.toNat + k := by
  have hmsb : (BitVec.ofNat 8 k).msb = false := by
    rw [BitVec.msb_eq_decide, BitVec.toNat_ofNat]
    simp; omega
  rw [State.frameAddr, sext16, BitVec.signExtend_eq_setWidth_of_msb_false hmsb, BitVec.toNat_add,
    BitVec.toNat_setWidth, BitVec.toNat_ofNat]
  omega

/-- 42_stack_ops.md R120 (c): the offset 0x100 - k is k below BP. -/
theorem State.toNat_frameAddr_sub {s : State} {k : Nat} (hpos : 0 < k) (hk : k ≤ 128) (hbp : k ≤ s.bp.toNat) :
    (s.frameAddr (BitVec.ofNat 8 (0x100 - k))).toNat = s.bp.toNat - k := by
  have hmsb : (BitVec.ofNat 8 (0x100 - k)).msb = true := by
    rw [BitVec.msb_eq_decide, BitVec.toNat_ofNat]
    simp; omega
  have hlt := s.bp.isLt
  rw [State.frameAddr, sext16, BitVec.toNat_add, BitVec.toNat_signExtend, hmsb, if_pos rfl,
    BitVec.toNat_setWidth, BitVec.toNat_ofNat]
  omega

/-- The cells of a frame below the top of memory are implemented. -/
theorem forall_mem_fourFrom_implemented {addr : Addr} (h : addr.toNat + 4 ≤ 0x4000) :
    ∀ y ∈ fourFrom addr, Implemented y := by
  have h1 : (addr + 1).toNat = addr.toNat + 1 := toNat_add_of_lt (n := 1) (by omega)
  have h2 : (addr + 2).toNat = addr.toNat + 2 := toNat_add_of_lt (n := 2) (by omega)
  have h3 : (addr + 3).toNat = addr.toNat + 3 := toNat_add_of_lt (n := 3) (by omega)
  simp only [forall_mem_fourFrom, Implemented, h1, h2, h3]
  omega

/-- A `CALL` whose frame is implemented keeps every byte below its frame. -/
theorem State.read_called_of_lt {s : State} {addr : Addr} (h : s.sp.toNat + 4 ≤ 0x4000) {x : Nat}
    (hx : x < s.sp.toNat) : (s.called addr).mem.read x = s.mem.read x := by
  have h1 : (s.sp + 1).toNat = s.sp.toNat + 1 := toNat_add_of_lt (n := 1) (by omega)
  have h2 : (s.sp + 2).toNat = s.sp.toNat + 2 := toNat_add_of_lt (n := 2) (by omega)
  have h3 : (s.sp + 3).toNat = s.sp.toNat + 3 := toNat_add_of_lt (n := 3) (by omega)
  have hne : ∀ y ∈ fourFrom s.sp, y.toNat ≠ x := by
    rw [forall_mem_fourFrom, h1, h2, h3]
    omega
  exact Memory.read_storeAll_of_forall_ne hne

/-- The frame of 42_stack_ops.md section 5 in `t`: arguments pushed from SP of `s` on, the four saved cells, locals. -/
structure FrameBuilt (args locals : List Byte) (s t : State) : Prop where
  bp : t.bp.toNat = s.sp.toNat + args.length + 3
  sp : t.sp.toNat = s.sp.toNat + args.length + 4 + locals.length
  argBytes : ∀ (i : Nat) (v : Byte), args[i]? = some v → t.mem.read (s.sp.toNat + i) = v
  localBytes : ∀ (j : Nat) (v : Byte), locals[j]? = some v → t.mem.read (s.sp.toNat + args.length + 4 + j) = v

/-- Pushing arguments, calling and pushing locals builds it: each part leaves the bytes below it as they were. -/
theorem execAll_frame {args locals : List Byte} (addr : Addr) {s : State}
    (hfit : s.sp.toNat + args.length + 4 + locals.length ≤ 0x4000) :
    ∃ t, execAll (args.map Instr.pushImm ++ Instr.call addr :: locals.map Instr.pushImm) s = .next t ∧
      FrameBuilt args locals s t := by
  obtain ⟨p, hp, pushedArgs⟩ := execAll_pushes args s (by omega)
  have hpsp := pushedArgs.sp
  have hcall : exec (.call addr) p = .next (p.called addr) := by
    rw [exec_call, State.checked_of_implemented _ _ _ (forall_mem_fourFrom_implemented (by omega))]
  have hbp : (p.called addr).bp.toNat = p.sp.toNat + 3 := toNat_add_of_lt (n := 3) (by omega)
  have hsp : (p.called addr).sp.toNat = p.sp.toNat + 4 := toNat_add_of_lt (n := 4) (by omega)
  obtain ⟨t, ht, pushedLocals⟩ := execAll_pushes locals (p.called addr) (by omega)
  refine ⟨t, by rw [execAll_append hp, execAll_cons hcall, ht], ?bp, ?sp, fun i v hi => ?argBytes,
    fun j v hj => ?localBytes⟩
  case bp => rw [pushedLocals.bp, hbp, hpsp]
  case sp => rw [pushedLocals.sp, hsp, hpsp]
  case argBytes =>
    obtain ⟨hlt, _⟩ := List.getElem?_eq_some_iff.mp hi
    rw [pushedLocals.below _ (by omega), State.read_called_of_lt (by omega) (by omega), pushedArgs.bytes i v hi]
  case localBytes =>
    rw [← hpsp, ← hsp, pushedLocals.bytes j v hj]

/-- Settles O16: the offsets of the frame table lead to the bytes where the pushes left them. -/
theorem frameReachesArgumentsAndLocals : Obligations.FrameReachesArgumentsAndLocals := by
  intro args locals addr s hargs hlocals hfit
  obtain ⟨t, ht, frame⟩ := execAll_frame addr hfit
  have hbp := frame.bp
  refine ⟨t, ht, hbp, frame.sp, fun i v hi => ?argument, fun j v hj => ?frameLocal⟩
  case argument =>
    obtain ⟨hlt, _⟩ := List.getElem?_eq_some_iff.mp hi
    have hea : (t.frameAddr (BitVec.ofNat 8 (0x100 - (3 + args.length - i)))).toNat = s.sp.toNat + i := by
      rw [State.toNat_frameAddr_sub (by omega) (by omega) (by omega)]
      omega
    exact exec_peekImm_of_read (by rw [Implemented, hea]; omega) (by rw [hea, frame.argBytes i v hi])
  case frameLocal =>
    obtain ⟨hlt, _⟩ := List.getElem?_eq_some_iff.mp hj
    have hea : (t.frameAddr (BitVec.ofNat 8 (j + 1))).toNat = s.sp.toNat + args.length + 4 + j := by
      rw [State.toNat_frameAddr_of_lt (by omega) (by omega)]
      omega
    exact exec_peekImm_of_read (by rw [Implemented, hea]; omega) (by rw [hea, frame.localBytes j v hj])

end Sys2Proof.Machine
end

section
/-! Proofs of the statements about the memory instructions (41_memory_ops.md) and the single-byte stack instructions
(42_stack_ops.md sections 2 and 3). -/

namespace Sys2Proof.Machine

/-! ### One data access, implemented or not -/

theorem State.checked_singleton_of_implemented {addr : Addr} (h : Implemented addr) (s : State) (r : Result) :
    s.checked [addr] r = r :=
  State.checked_singleton_of_inRange s r ((implemented_iff addr).mp h)

theorem State.checked_singleton_of_not_implemented {addr : Addr} (h : ¬ Implemented addr) (s : State) (r : Result) :
    s.checked [addr] r = .fault (.accessOutOfRange s.pc addr) :=
  State.checked_singleton_of_memTop_lt s r (Nat.lt_of_not_le h)

/-- The pointer's own bytes are in the zero page or at 0x0100, so an access through it checks its effective address
only (41_memory_ops.md R110). -/
theorem State.checked_zpAddrs (s : State) (zp : Byte) (r : Result) :
    s.checked (s.zpAddrs zp) r = s.checked [s.zpIndexed zp] r := by
  obtain ⟨hlo, hhi⟩ := inRange_zeroPage zp
  rw [State.zpAddrs_eq, State.checked_cons, if_pos hlo, State.checked_cons, if_pos hhi]

/-! ### The addresses -/

theorem zext16_eq_ofNat (v : Byte) : zext16 v = BitVec.ofNat 16 v.toNat :=
  (BitVec.ofNat_toNat 16 v).symm

theorem sext16_eq_ofInt (v : Byte) : sext16 v = BitVec.ofInt 16 v.toInt := rfl

theorem toNat_joinBytes (hi lo : Byte) : (joinBytes hi lo).toNat = lo.toNat + 256 * hi.toNat := by
  have hlo : lo.toNat < 2 ^ 8 := lo.isLt
  rw [joinBytes, BitVec.toNat_append, ← Nat.shiftLeft_add_eq_or_of_lt hlo, Nat.shiftLeft_eq]
  omega

/-- The byte after a zero-page address, even at 0xFF (20_memory.md R47, decision D6). -/
theorem toNat_zext16_add_one (zp : Byte) : (zext16 zp + 1).toNat = zp.toNat + 1 := by
  have hzp := zp.isLt
  have hnat := toNat_zext16 zp
  rw [← hnat]
  exact toNat_add_of_lt (n := 1) (by omega)

/-- Settles O6: the model's address helpers, at the parameters' values, in terms of registers and memory. -/
theorem effectiveAddressesAsSpecified : Obligations.EffectiveAddressesAsSpecified := by
  intro s
  refine ⟨fun base => ?indexed, fun zp => ?pointer, fun zp => ?zpIndexed, fun offset => ?frame, ?retBase⟩
  case indexed => rw [State.indexed_eq, zext16_eq_ofNat]
  case pointer =>
    rw [State.zpPointer_eq, toNat_joinBytes, State.readByte, State.readByte, toNat_zext16, toNat_zext16_add_one]
  case zpIndexed => rw [State.zpIndexed, State.indexed_eq, zext16_eq_ofNat]
  case frame => rw [State.frameAddr, sext16_eq_ofInt]
  case retBase =>
    rw [State.retBase_eq]
    bv_omega

/-! ### Loads and stores -/

/-- Settles O2: one check, then the load. -/
theorem movLoadsByteFromMemory : Obligations.MovLoadsByteFromMemory := by
  intro addr s
  rw [exec_movArMem, exec_movBrMem]
  refine ⟨fun himp => ?loads, fun hout => ?faults⟩
  case loads =>
    simp only [State.checked_singleton_of_implemented himp]
    exact ⟨rfl, rfl⟩
  case faults => simp only [State.checked_singleton_of_not_implemented hout, and_self]

/-- Settles O3: one check, then the store. -/
theorem movStoresByteToMemory : Obligations.MovStoresByteToMemory := by
  intro addr s
  rw [exec_movMemAr, exec_movMemBr]
  refine ⟨fun himp => ?stores, fun hout => ?faults⟩
  case stores =>
    simp only [State.checked_singleton_of_implemented himp]
    exact ⟨storesByte_of_eq_write rfl, storesByte_of_eq_write rfl⟩
  case faults => simp only [State.checked_singleton_of_not_implemented hout, and_self]

/-- Settles O5: no access to memory, and both registers are read before either is written. -/
theorem swpExchangesRegisters : Obligations.SwpExchangesRegisters := fun _ => rfl

/-- Settles O7: one check, of the sum. -/
theorem ldoStoUseAddressPlusB : Obligations.LdoStoUseAddressPlusB := by
  intro addr s
  rw [exec_ldo, exec_sto]
  refine ⟨fun himp => ?accesses, fun hout => ?faults⟩
  case accesses =>
    simp only [State.checked_singleton_of_implemented himp]
    exact ⟨rfl, storesByte_of_eq_write rfl⟩
  case faults => simp only [State.checked_singleton_of_not_implemented hout, and_self]

/-- Settles O8: the checks of the pointer's bytes pass, so that of the effective address decides. -/
theorem zeroPagePointerAccesses : Obligations.ZeroPagePointerAccesses := by
  intro zp s
  rw [exec_ldzAr, exec_ldzZp, exec_stzZp]
  simp only [State.checked_zpAddrs]
  refine ⟨fun himp => ?accesses, fun hout => ?faults⟩
  case accesses =>
    have hnext := fun t => State.checked_singleton_of_implemented himp s (.next t)
    refine ⟨?_, hnext _, storesByte_of_eq_write (hnext _)⟩
    rintro rfl
    exact hnext _
  case faults =>
    have hfault := fun t => State.checked_singleton_of_not_implemented hout s (.next t)
    refine ⟨?_, hfault _, hfault _⟩
    rintro rfl
    exact hfault _

/-- Settles O9: no access to memory, one byte at the end of the console. -/
theorem ioAppendsToConsole : Obligations.IoAppendsToConsole := fun _ => ⟨rfl, rfl⟩

/-- Settles O11: `PUSH` checks SP, `POP` checks SP - 1, and nothing else is checked. -/
theorem pushAndPopMoveOneByte : Obligations.PushAndPopMoveOneByte := by
  intro s
  rw [exec_pushAr, exec_pop]
  refine ⟨fun himp => ?pushes, fun hout => ?pushFaults, fun himp => ?pops, fun hout => ?popFaults⟩
  case pushes => exact storesByte_of_eq_write (State.checked_singleton_of_implemented himp s _)
  case pushFaults => exact State.checked_singleton_of_not_implemented hout s _
  case pops => exact State.checked_singleton_of_implemented himp s _
  case popFaults => exact State.checked_singleton_of_not_implemented hout s _

/-- Settles O12: the offset is the immediate or B, and the one check is of BP plus it. -/
theorem peekAndPokeReachFrameBytes : Obligations.PeekAndPokeReachFrameBytes := by
  intro imm s
  rw [exec_peekImm, exec_pokeImm, exec_peekBr, exec_pokeBr]
  refine ⟨fun himp => ?immediate, fun himp => ?register, fun hout => ?immediateFaults, fun hout => ?registerFaults⟩
  case immediate =>
    simp only [State.checked_singleton_of_implemented himp]
    exact ⟨rfl, storesByte_of_eq_write rfl⟩
  case register =>
    simp only [State.checked_singleton_of_implemented himp]
    exact ⟨rfl, storesByte_of_eq_write rfl⟩
  case immediateFaults => simp only [State.checked_singleton_of_not_implemented hout, and_self]
  case registerFaults => simp only [State.checked_singleton_of_not_implemented hout, and_self]

end Sys2Proof.Machine
end

section
/-! Proofs of the statements about the ALU instructions (43_alu_ops.md) and the jumps (44_flow_control.md). -/

namespace Sys2Proof.Machine

/-! ### Results of the ALU -/

/-- An addition as the instructions do it, with its carry and its overflow (43_alu_ops.md R140). -/
theorem State.aluAdd_value (s : State) (x y : Byte) : s.aluAdd x y =
    { value := x + y
      carry := decide (256 ≤ x.toNat + y.toNat)
      overflow := (x.msb == y.msb) && ((x + y).msb != x.msb) } := by
  have hvalue : BitVec.ofNat 8 (x.toNat + y.toNat) = x + y := by
    rw [BitVec.ofNat_add, BitVec.ofNat_toNat, BitVec.ofNat_toNat, BitVec.setWidth_eq, BitVec.setWidth_eq]
  simp only [State.aluAdd_eq, add8, Bool.toNat_false, Nat.add_zero, hvalue]

/-- A subtraction as the instructions do it, with its borrow and its overflow (43_alu_ops.md R140). -/
theorem State.aluSub_value (s : State) (x y : Byte) : s.aluSub x y =
    { value := x - y
      carry := decide (x.toNat < y.toNat)
      overflow := (x.msb != y.msb) && ((x - y).msb != x.msb) } := by
  simp only [State.aluSub_eq, sub8, Bool.toNat_false, Nat.add_zero, BitVec.sub_zero, beq_true]

theorem State.aluToA_aluAdd (s : State) (x y : Byte) :
    s.aluToA (s.aluAdd x y) = { withSumFlags x y s with a := x + y } := by
  rw [State.aluAdd_value]
  rfl

theorem State.aluToB_aluAdd (s : State) (x y : Byte) :
    s.aluToB (s.aluAdd x y) = { withSumFlags x y s with b := x + y } := by
  rw [State.aluAdd_value]
  rfl

theorem State.aluToA_aluSub (s : State) (x y : Byte) :
    s.aluToA (s.aluSub x y) = { withDiffFlags x y s with a := x - y } := by
  rw [State.aluSub_value]
  rfl

theorem State.aluToB_aluSub (s : State) (x y : Byte) :
    s.aluToB (s.aluSub x y) = { withDiffFlags x y s with b := x - y } := by
  rw [State.aluSub_value]
  rfl

/-- A logic result clears C and V (43_alu_ops.md R140). -/
theorem State.aluToA_logic8 (s : State) (r : Byte) :
    s.aluToA (logic8 r) = { withResultFlags r false s with a := r } := rfl

/-- `SHL` doubles modulo 256 and moves bit 7 to C (43_alu_ops.md R146). -/
theorem shl8_eq (x : Byte) : shl8 x =
    { value := BitVec.ofNat 8 (2 * x.toNat), carry := decide (128 ≤ x.toNat), overflow := false } := by
  have hvalue : x <<< 1 = BitVec.ofNat 8 (2 * x.toNat) := by
    apply BitVec.eq_of_toNat_eq
    rw [BitVec.toNat_shiftLeft, BitVec.toNat_ofNat, Nat.shiftLeft_eq]
    omega
  have hcarry : x.getLsbD 7 = decide (128 ≤ x.toNat) := by
    rw [← BitVec.msb_eq_getLsbD_last, BitVec.msb_eq_decide]
  rw [shl8, hvalue, hcarry]

/-- `SHR` halves and moves bit 0 to C (43_alu_ops.md R147). -/
theorem shr8_eq (x : Byte) : shr8 x =
    { value := BitVec.ofNat 8 (x.toNat / 2), carry := decide (x.toNat % 2 = 1), overflow := false } := by
  have hvalue : x >>> 1 = BitVec.ofNat 8 (x.toNat / 2) := by
    apply BitVec.eq_of_toNat_eq
    rw [BitVec.toNat_ushiftRight, BitVec.toNat_ofNat, Nat.shiftRight_eq_div_pow]
    omega
  have hcarry : x.getLsbD 0 = decide (x.toNat % 2 = 1) := by
    rw [BitVec.getLsbD, Nat.testBit_zero]
  rw [shr8, hvalue, hcarry]

/-! ### The ALU instructions -/

/-- An ALU instruction is its result and then the advance of PC. -/
theorem next_advance_congr {t u : State} (h : t = u) (n : Addr) :
    (.next (t.advance n) : Result) = .next (u.advance n) := by
  rw [h]

/-- Settles O17: the sum of the two operands, `INC` adding 1. -/
theorem additionsSetResultAndFlags : Obligations.AdditionsSetResultAndFlags := fun imm s =>
  ⟨next_advance_congr (s.aluToA_aluAdd s.a imm) 2, next_advance_congr (s.aluToA_aluAdd s.a s.b) 1,
    next_advance_congr (s.aluToA_aluAdd s.a 1) 1, next_advance_congr (s.aluToB_aluAdd s.b 1) 1⟩

/-- Settles O18: the difference of the two operands, `DEC` subtracting 1. -/
theorem subtractionsSetResultAndFlags : Obligations.SubtractionsSetResultAndFlags := fun imm s =>
  ⟨next_advance_congr (s.aluToA_aluSub s.a imm) 2, next_advance_congr (s.aluToA_aluSub s.a s.b) 1,
    next_advance_congr (s.aluToA_aluSub s.a 1) 1, next_advance_congr (s.aluToB_aluSub s.b 1) 1⟩

/-- Settles O19: no result, so Z and M stay. -/
theorem clcClearsCarryAndOverflow : Obligations.ClcClearsCarryAndOverflow := fun _ => rfl

/-- Settles O20: the two shifts in arithmetic terms. -/
theorem shiftsMoveOneBit : Obligations.ShiftsMoveOneBit := fun s =>
  ⟨next_advance_congr (congrArg s.aluToA (shl8_eq s.a)) 1, next_advance_congr (congrArg s.aluToA (shr8_eq s.a)) 1⟩

/-- `NOT` is one's complement (43_alu_ops.md R158). -/
theorem xor_ff_eq_not (x : Byte) : x ^^^ 0xFF = ~~~x :=
  BitVec.xor_allOnes

/-- Settles O21: each operation's bits go to A, and a logic result clears C and V. -/
theorem logicSetsResultAndFlags : Obligations.LogicSetsResultAndFlags := by
  intro imm s
  have hlogic : ∀ r n, (.next ((s.aluToA (logic8 r)).advance n) : Result) =
      .next { withResultFlags r false s with a := r, pc := s.pc + n } :=
    fun r n => next_advance_congr (s.aluToA_logic8 r) n
  refine ⟨hlogic _ 1, hlogic _ 2, hlogic _ 1, hlogic _ 2, hlogic _ 1, hlogic _ 2, ?_⟩
  rw [← xor_ff_eq_not]
  exact hlogic _ 1

/-! ### What the flags say of signed and unsigned numbers -/

/-- 10_state.md R19: the overflow of a sum is that of the numbers. -/
theorem sumOverflow_iff (x y : Byte) : ((x.msb == y.msb) && ((x + y).msb != x.msb)) = true ↔
    ¬ (-128 ≤ x.toInt + y.toInt ∧ x.toInt + y.toInt ≤ 127) := by
  have hover : ((x.msb == y.msb) && ((x + y).msb != x.msb)) = x.saddOverflow y := (BitVec.saddOverflow_eq x y).symm
  rw [hover, BitVec.saddOverflow]
  simp only [Bool.or_eq_true, decide_eq_true_eq]
  omega

/-- 10_state.md R19: the overflow of a difference is that of the numbers. -/
theorem diffOverflow_iff (x y : Byte) : ((x.msb != y.msb) && ((x - y).msb != x.msb)) = true ↔
    ¬ (-128 ≤ x.toInt - y.toInt ∧ x.toInt - y.toInt ≤ 127) := by
  have hover : ((x.msb != y.msb) && ((x - y).msb != x.msb)) = x.ssubOverflow y := by
    rw [BitVec.ssubOverflow_eq]
    cases x.msb <;> cases y.msb <;> simp
  rw [hover, BitVec.ssubOverflow]
  simp only [Bool.or_eq_true, decide_eq_true_eq]
  omega

theorem toInt_bounds (x : Byte) : -128 ≤ x.toInt ∧ x.toInt ≤ 127 :=
  ⟨BitVec.le_toInt x, Int.lt_add_one_iff.mp (BitVec.toInt_lt (x := x))⟩

/-- Settles O22: V is the overflow of the operands' sum or difference; adding or subtracting 1 overflows at one end of
the signed range only. -/
theorem overflowMeansSignedOutOfRange : Obligations.OverflowMeansSignedOutOfRange := by
  intro imm s t
  obtain ⟨hadd, haddBr, _, hincBr⟩ := additionsSetResultAndFlags imm s
  obtain ⟨hsub, hsubBr, _, hdecBr⟩ := subtractionsSetResultAndFlags imm s
  have hone : (1 : Byte).toInt = 1 := rfl
  have hb := toInt_bounds s.b
  refine ⟨fun h => ?add, fun h => ?addBr, fun h => ?sub, fun h => ?subBr, fun h => ?incBr, fun h => ?decBr⟩
  case add => cases hadd.symm.trans h; exact sumOverflow_iff s.a imm
  case addBr => cases haddBr.symm.trans h; exact sumOverflow_iff s.a s.b
  case sub => cases hsub.symm.trans h; exact diffOverflow_iff s.a imm
  case subBr => cases hsubBr.symm.trans h; exact diffOverflow_iff s.a s.b
  case incBr =>
    cases hincBr.symm.trans h
    refine (sumOverflow_iff s.b 1).trans ?_
    rw [hone]
    omega
  case decBr =>
    cases hdecBr.symm.trans h
    refine (diffOverflow_iff s.b 1).trans ?_
    rw [hone]
    omega

/-- 43_alu_ops.md R159: M xor V of a difference orders signed numbers. With operands of one sign there is no overflow and
M is the sign of the difference; with operands of different sign it is the first one's. -/
theorem minusXorOverflow_iff (x y : Byte) :
    ((x - y).msb ^^ ((x.msb != y.msb) && ((x - y).msb != x.msb))) = true ↔ x.toInt < y.toInt := by
  have hx : x.msb = decide (x.toInt < 0) := BitVec.msb_eq_toInt
  have hy : y.msb = decide (y.toInt < 0) := BitVec.msb_eq_toInt
  by_cases hsign : x.msb = y.msb
  · have hover : ¬ x.ssubOverflow y = true := by
      rw [BitVec.ssubOverflow_eq, hsign]
      cases y.msb <;> simp
    simp only [hsign, bne_self_eq_false, Bool.false_and, Bool.xor_false, BitVec.msb_eq_toInt,
      BitVec.toInt_sub_of_not_ssubOverflow hover, decide_eq_true_eq]
    omega
  · have hfirst : ((x - y).msb ^^ ((x.msb != y.msb) && ((x - y).msb != x.msb))) = x.msb := by
      rw [bne_iff_ne.mpr hsign]
      cases (x - y).msb <;> cases x.msb <;> rfl
    rw [hfirst, hx]
    rw [hx, hy, decide_eq_decide] at hsign
    simp only [decide_eq_true_eq]
    omega

/-- Settles O23: the flags are those of the difference; C is the borrow, and it is 0 only for equal operands. -/
theorem subtractionComparesBothWays : Obligations.SubtractionComparesBothWays := by
  intro imm s
  obtain ⟨hsub, _⟩ := subtractionsSetResultAndFlags imm s
  refine ⟨_, hsub, decide_eq_true_iff, ?_, minusXorOverflow_iff s.a imm⟩
  exact beq_iff_eq.trans sub_eq_zero

/-! ### Jumps -/

/-- 44_flow_control.md R170: a jump writes PC and nothing else. -/
theorem State.jumpIf_eq (s : State) (cond : Bool) (addr : Addr) :
    s.jumpIf cond addr = { s with pc := if cond = true then addr else s.pc + 3 } := by
  cases cond <;> rfl

/-- Settles O24: the operand is not checked. -/
theorem jmpGoesToOperand : Obligations.JmpGoesToOperand := fun _ _ => rfl

/-- Settles O25: each condition is that of the table, on the flags of the state. -/
theorem conditionalJumpsFollowFlags : Obligations.ConditionalJumpsFollowFlags := by
  intro addr s
  have hjump : ∀ (cond : Bool) (p : Prop) [Decidable p], (cond = true ↔ p) →
      (.next (s.jumpIf cond addr) : Result) = .next { s with pc := if p then addr else s.pc + 3 } := by
    intro cond p _ h
    simp only [State.jumpIf_eq, h]
  refine ⟨hjump _ _ Iff.rfl, hjump _ _ ?_, hjump _ _ Iff.rfl, hjump _ _ ?_, hjump _ _ Iff.rfl, hjump _ _ ?_,
    hjump _ _ Iff.rfl, hjump _ _ ?_⟩
  all_goals simp

theorem zeroFlag_iff (r : Byte) : zeroFlag r = true ↔ r.toInt = 0 := by
  rw [zeroFlag, beq_iff_eq, ← BitVec.toInt_inj]
  rfl

theorem minusFlag_iff (r : Byte) : minusFlag r = true ↔ r.toInt < 0 := by
  rw [minusFlag, BitVec.msb_eq_toInt, decide_eq_true_eq]

/-- Settles O26: Z and M after a result say whether it is zero and whether it is negative. -/
theorem jumpsTestSignOfLastResult : Obligations.JumpsTestSignOfLastResult := by
  rintro addr x s t rfl
  obtain ⟨hjz, hjnz, hjm, hjp, _⟩ := conditionalJumpsFollowFlags addr (s.setFlags x)
  have hpos : 0 < x.value.toInt ↔ ¬ x.value.toInt = 0 ∧ ¬ x.value.toInt < 0 := by omega
  simp only [State.setFlags_flagZ, State.setFlags_flagM, State.setFlags_pc, ← Bool.not_eq_true, zeroFlag_iff,
    minusFlag_iff, ← hpos, ite_not] at hjz hjnz hjm hjp
  exact ⟨hjz, hjnz, hjm, hjp⟩

end Sys2Proof.Machine
end

section
/-! Proofs of the statements about the tables of what each instruction reads and writes (10_state.md section 6). -/

namespace Sys2Proof.Machine

/-! ### The state with what an instruction does not read or write taken from elsewhere -/

/-- `s` with the registers and flags that `r` does not name taken from `u`. -/
def State.withUnread (s : State) (r : Reads) (u : State) : State :=
  { s with
    a := if r.a then s.a else u.a
    b := if r.b then s.b else u.b
    sp := if r.sp then s.sp else u.sp
    bp := if r.bp then s.bp else u.bp
    flagZ := if r.z then s.flagZ else u.flagZ
    flagM := if r.m then s.flagM else u.flagM
    flagC := if r.c then s.flagC else u.flagC
    flagV := if r.v then s.flagV else u.flagV }

/-- `t` with the registers and flags that `w` does not name taken from `u`. -/
def State.withUnwritten (t : State) (w : Writes) (u : State) : State :=
  { t with
    a := if w.a then t.a else u.a
    b := if w.b then t.b else u.b
    sp := if w.sp then t.sp else u.sp
    bp := if w.bp then t.bp else u.bp
    flagZ := if w.zm then t.flagZ else u.flagZ
    flagM := if w.zm then t.flagM else u.flagM
    flagC := if w.cv then t.flagC else u.flagC
    flagV := if w.cv then t.flagV else u.flagV }

theorem State.withUnread_self (s : State) (r : Reads) : s.withUnread r s = s := by
  simp only [State.withUnread, ite_self]

/-- `r` from `s` and `r'` from `s'` are one checked next state, up to what the instruction does not write. -/
def SameWrites (i : Instr) (s s' : State) (r r' : Result) : Prop :=
  ∃ t, r = s.checked (dataReads i s ++ dataWrites i s) (.next t) ∧
    r' = s.checked (dataReads i s ++ dataWrites i s) (.next (t.withUnwritten (writesOf i) s'))

/-- A jump on the same condition writes PC only (44_flow_control.md R170). -/
theorem sameWrites_jump {i : Instr} {s s' : State} {cond : Bool} {addr : Addr}
    (hfoot : dataReads i s ++ dataWrites i s = []) (hwrites : writesOf i = { transfers := true })
    (hpc : s'.pc = s.pc) (hmem : s'.mem = s.mem) (hconsole : s'.console = s.console) :
    SameWrites i s s' (.next (s.jumpIf cond addr)) (.next (s'.jumpIf cond addr)) := by
  refine ⟨s.jumpIf cond addr, ?_, ?_⟩
  · rw [hfoot, State.checked_nil]
  · rw [hfoot, State.checked_nil, hwrites, State.jumpIf_eq, State.jumpIf_eq, hpc, State.withUnwritten, ← hmem,
      ← hconsole]
    rfl

/-- 10_state.md section 6, the column "Reads": whatever the registers and flags that it does not name, an instruction
makes the same checks and writes the same. -/
theorem sameWrites_exec (i : Instr) (s u : State) :
    SameWrites i s (s.withUnread (readsOf i) u) (exec i s) (exec i (s.withUnread (readsOf i) u)) := by
  cases i with
  | jmp | jz | jnz | jm | jp | jc | jnc | jof | jnof => exact sameWrites_jump rfl rfl rfl rfl rfl
  | call addr =>
    rw [exec_call, exec_call]
    exact ⟨_, rfl, rfl⟩
  | _ => exact ⟨_, rfl, rfl⟩

theorem ite_eq_right_of_agree {α : Type} {c : Bool} {x x' : α} (h : c = true → x' = x) :
    (if c then x else x') = x' := by
  split
  next hc => exact (h hc).symm
  next => rfl

/-- A state that agrees with `s` on what `r` names is `s` with the rest taken from it. -/
theorem State.withUnread_of_agree {s s' : State} {r : Reads}
    (ha : r.a = true → s'.a = s.a) (hb : r.b = true → s'.b = s.b)
    (hsp : r.sp = true → s'.sp = s.sp) (hbp : r.bp = true → s'.bp = s.bp)
    (hz : r.z = true → s'.flagZ = s.flagZ) (hm : r.m = true → s'.flagM = s.flagM)
    (hc : r.c = true → s'.flagC = s.flagC) (hv : r.v = true → s'.flagV = s.flagV)
    (hpc : s'.pc = s.pc) (hmem : s'.mem = s.mem) (hconsole : s'.console = s.console) :
    s.withUnread r s' = s' := by
  simp only [State.withUnread, ite_eq_right_of_agree ha, ite_eq_right_of_agree hb, ite_eq_right_of_agree hsp,
    ite_eq_right_of_agree hbp, ite_eq_right_of_agree hz, ite_eq_right_of_agree hm, ite_eq_right_of_agree hc,
    ite_eq_right_of_agree hv, ← hpc, ← hmem, ← hconsole]

/-- Settles O30: the second state is the first with what the instruction does not read taken from elsewhere. -/
theorem instructionsReadOnlyTabledState : Obligations.InstructionsReadOnlyTabledState := by
  intro i s s' ha hb hsp hbp hz hm hc hv hpc hmem hconsole
  obtain ⟨t, hexec, hexec'⟩ := sameWrites_exec i s s'
  rw [State.withUnread_of_agree ha hb hsp hbp hz hm hc hv hpc hmem hconsole] at hexec'
  rw [hexec, hexec']
  exact sameOutcome_checked rfl _ rfl

/-! ### The column "Writes" -/

/-- An instruction that the table lets write no memory stores nothing. -/
theorem stores_eq_nil {i : Instr} (h : (writesOf i).mem = false) (s : State) : stores i s = [] := by
  cases i with
  | movMemAr | movMemBr | sto | stzZp | pushAr | pushImm | pokeBr | pokeImm | call => cases h
  | _ => rfl

/-- The console is written by `IO` only, and PC goes to the next instruction but for the transfers of control. -/
theorem exec_eq_checked_pc_console (i : Instr) (s : State) :
    ∃ t, exec i s = s.checked (dataReads i s ++ dataWrites i s) (.next t) ∧
      ((writesOf i).console = false → t.console = s.console) ∧
      ((writesOf i).transfers = false → t.pc = s.pc + BitVec.ofNat 16 i.length) := by
  cases i with
  | jmp | jz | jnz | jm | jp | jc | jnc | jof | jnof => exact ⟨_, rfl, fun _ => State.jumpIf_console .., nofun⟩
  | ret => exact ⟨_, rfl, fun _ => rfl, nofun⟩
  | call addr =>
    rw [exec_call]
    exact ⟨_, rfl, fun _ => rfl, nofun⟩
  | ioAr | ioBr => exact ⟨_, rfl, nofun, fun _ => rfl⟩
  | _ => exact ⟨_, rfl, fun _ => rfl, fun _ => rfl⟩

theorem exec_next_withUnwritten {i : Instr} {s t : State} (h : exec i s = .next t) :
    t = t.withUnwritten (writesOf i) s := by
  obtain ⟨u, hexec, hexec'⟩ := sameWrites_exec i s s
  rw [State.withUnread_self] at hexec'
  obtain ⟨_, hnext⟩ := State.checked_next _ _ _ _ (hexec.symm.trans h)
  obtain ⟨_, hnext'⟩ := State.checked_next _ _ _ _ (hexec'.symm.trans h)
  cases hnext
  exact (Host.Outcome.next.inj hnext').symm

theorem exec_next_pc_console {i : Instr} {s t : State} (h : exec i s = .next t) :
    ((writesOf i).console = false → t.console = s.console) ∧
      ((writesOf i).transfers = false → t.pc = s.pc + BitVec.ofNat 16 i.length) := by
  obtain ⟨u, hexec, hkeeps⟩ := exec_eq_checked_pc_console i s
  obtain ⟨_, hnext⟩ := State.checked_next _ _ _ _ (hexec.symm.trans h)
  cases hnext
  exact hkeeps

theorem eq_of_eq_ite_of_false {α : Type} {c : Bool} {x y : α} (h : x = if c then x else y) (hc : c = false) :
    x = y := by
  rwa [hc] at h

/-- Settles O29: with no other state to differ from, what an instruction does not write is what it was. -/
theorem instructionsWriteOnlyTabledState : Obligations.InstructionsWriteOnlyTabledState := by
  intro i s t h
  have hkeep := exec_next_withUnwritten h
  obtain ⟨hconsole, hpc⟩ := exec_next_pc_console h
  have hkept {α : Type} (field : State → α) := congrArg field hkeep
  refine ⟨eq_of_eq_ite_of_false (hkept State.a), eq_of_eq_ite_of_false (hkept State.b),
    eq_of_eq_ite_of_false (hkept State.sp), eq_of_eq_ite_of_false (hkept State.bp), fun hzm => ⟨?_, ?_⟩,
    fun hcv => ⟨?_, ?_⟩, fun hmem => ?mem, hconsole, hpc⟩
  · exact eq_of_eq_ite_of_false (hkept State.flagZ) hzm
  · exact eq_of_eq_ite_of_false (hkept State.flagM) hzm
  · exact eq_of_eq_ite_of_false (hkept State.flagC) hcv
  · exact eq_of_eq_ite_of_false (hkept State.flagV) hcv
  case mem =>
    obtain ⟨_, ht⟩ := exec_next_stores h
    rw [ht, stores_eq_nil hmem]
    rfl

end Sys2Proof.Machine
end

section
/-! Proofs of the statements about the fetch and the step (70_reset_and_hazards.md section 3, 20_memory.md section 4). -/

namespace Sys2Proof

open Machine

/-! ### The bytes of an instruction at PC -/

theorem Form.Builds.length_eq {form : Form} {operands : List Byte} {i : Instr} (h : form.Builds operands i) :
    operands.length = form.format.length - 1 := by
  cases h <;> rfl

theorem Format.length_pos (f : Format) : 0 < f.length := by
  cases f <;> exact Nat.succ_pos _

theorem Format.length_le (f : Format) : f.length ≤ 3 := by
  cases f <;> simp [Format.length]

/-- An instruction is as long as its row's format (30_encoding.md R73). -/
theorem Instr.length_of_builds {op : Byte} {form : Form} {operands : List Byte} {i : Instr}
    (hform : opcodeForm op = some form) (hbuilds : form.Builds operands i) : i.length = form.format.length := by
  have hpos := form.format.length_pos
  rw [Instr.length, encode_of_builds hform hbuilds, List.length_cons, hbuilds.length_eq]
  omega

end Sys2Proof

namespace Sys2Proof.Machine

theorem mem_operandAddrs {pc y : Addr} {n : Nat} :
    y ∈ operandAddrs pc n ↔ ∃ k < n, pc + BitVec.ofNat 16 (k + 1) = y := by
  simp [operandAddrs]

/-- At most two operand bytes follow the opcode byte. -/
theorem map_operandAddrs {α : Type} (f : Addr → α) (pc : Addr) {n : Nat} (hn : n ≤ 2) :
    (operandAddrs pc n).map f = [f (pc + 1), f (pc + 2)].take n := by
  match n, hn with
  | 0, _ => rfl
  | 1, _ => rfl
  | 2, _ => rfl

/-- A fetch of implemented bytes that build an instruction answers it. -/
theorem State.fetch_of_builds {s : State} {form : Form} {operands : List Byte} {i : Instr}
    (hpc : Implemented s.pc) (hform : opcodeForm (s.readByte s.pc) = some form) (hbuilds : form.Builds operands i)
    (hoperands : (operandAddrs s.pc (form.format.length - 1)).map s.readByte = operands)
    (himp : ∀ y ∈ operandAddrs s.pc (form.format.length - 1), Implemented y) : s.fetch = .ok i := by
  have hnone : firstOutOfRange (operandAddrs s.pc (form.format.length - 1)) = none :=
    (firstOutOfRange_none _).mpr fun y hy => (implemented_iff y).mp (himp y hy)
  have hdecode := decode_of_builds [] hform hbuilds
  rw [List.append_nil] at hdecode
  unfold State.fetch
  rw [if_pos ((implemented_iff s.pc).mp hpc)]
  simp only [hform, hnone, hoperands, hdecode]

theorem step_of_fetch {s : State} {i : Instr} (h : s.fetch = .ok i) : step s = exec i s := by
  rw [step, h]

theorem step_of_fetch_error {s : State} {f : Fault} (h : s.fetch = .error f) : step s = .fault f := by
  rw [step, h]

/-- Settles O41: the three bytes at PC begin with the instruction's, which are the ones the fetch reads. -/
theorem stepRunsDecodedInstruction : Obligations.StepRunsDecodedInstruction := by
  intro s i rest hdecode _ himp
  obtain ⟨op, form, operands, hform, hbuilds, hbytes⟩ := builds_of_decode hdecode
  rw [List.cons_append] at hbytes
  obtain ⟨rfl, htail⟩ := List.cons.inj hbytes
  have hpos := form.format.length_pos
  have hle := form.format.length_le
  rw [Instr.length_of_builds hform hbuilds] at himp
  have hoperands : (operandAddrs s.pc (form.format.length - 1)).map s.readByte = operands := by
    rw [map_operandAddrs _ _ (by omega), htail, ← hbuilds.length_eq, List.take_left]
  refine step_of_fetch (State.fetch_of_builds ?pc hform hbuilds hoperands ?operands)
  case pc => simpa using himp 0 hpos
  case operands =>
    intro y hy
    obtain ⟨k, hk, rfl⟩ := mem_operandAddrs.mp hy
    exact himp (k + 1) (by omega)

/-! ### Faults -/

/-- The first operand byte above `MEM_TOP` is the one that the fetch finds. -/
theorem firstOutOfRange_operandAddrs {pc : Addr} {n k : Nat} (hk : k < n)
    (hout : ¬ Implemented (pc + BitVec.ofNat 16 (k + 1)))
    (hbelow : ∀ j < k, Implemented (pc + BitVec.ofNat 16 (j + 1))) :
    firstOutOfRange (operandAddrs pc n) = some (pc + BitVec.ofNat 16 (k + 1)) := by
  have hfind : (List.range n).find? ((fun addr => !inRange addr) ∘ fun k => pc + BitVec.ofNat 16 (k + 1)) = some k := by
    rw [List.find?_range_eq_some]
    refine ⟨by simpa using (not_implemented_iff _).mp hout, List.mem_range.mpr hk, fun j hj => ?_⟩
    simpa using (implemented_iff _).mp (hbelow j hj)
  rw [firstOutOfRange, operandAddrs, List.find?_map, hfind]
  rfl

theorem State.fetch_of_pc_out {s : State} (h : ¬ Implemented s.pc) :
    s.fetch = .error (.accessOutOfRange s.pc s.pc) := by
  have hout := (not_implemented_iff s.pc).mp h
  unfold State.fetch
  rw [hout]
  rfl

theorem State.fetch_of_undefined {s : State} (hpc : Implemented s.pc) (h : opcodeForm (s.readByte s.pc) = none) :
    s.fetch = .error (.illegalOpcode s.pc (s.readByte s.pc)) := by
  unfold State.fetch
  rw [if_pos ((implemented_iff s.pc).mp hpc), h]

theorem State.fetch_of_operand_out {s : State} {form : Form} {y : Addr} (hpc : Implemented s.pc)
    (hform : opcodeForm (s.readByte s.pc) = some form)
    (hfirst : firstOutOfRange (operandAddrs s.pc (form.format.length - 1)) = some y) :
    s.fetch = .error (.accessOutOfRange s.pc y) := by
  unfold State.fetch
  rw [if_pos ((implemented_iff s.pc).mp hpc)]
  simp only [hform, hfirst]

/-- Settles O42: the fetch's checks in their order. -/
theorem fetchFaultsInOrder : Obligations.FetchFaultsInOrder := by
  intro s
  refine ⟨fun hpc => step_of_fetch_error (State.fetch_of_pc_out hpc),
    fun hpc hnone => step_of_fetch_error (State.fetch_of_undefined hpc hnone), ?_⟩
  intro form k hpc hform hpos hk hout hbelow
  obtain ⟨k, rfl⟩ := Nat.exists_eq_succ_of_ne_zero (Nat.ne_of_gt hpos)
  refine step_of_fetch_error (State.fetch_of_operand_out hpc hform (firstOutOfRange_operandAddrs ?_ hout ?_))
  · omega
  · exact fun j hj => hbelow (j + 1) (Nat.succ_pos j) (Nat.succ_lt_succ hj)

/-- Settles O43: a fetch faults in one of three ways, and an instruction in one. -/
theorem stepAnswersNextOrOneOfTwoFaults : Obligations.StepAnswersNextOrOneOfTwoFaults := by
  intro s
  cases hfetch : s.fetch with
  | error f =>
    have hstep := step_of_fetch_error hfetch
    obtain ⟨hpc, rfl⟩ | ⟨hpc, hnone, rfl⟩ | ⟨_, form, y, _, hfirst, rfl⟩ := State.fetch_error hfetch
    · exact .inr (.inr ⟨s.pc, (not_implemented_iff _).mpr hpc, hstep⟩)
    · exact .inr (.inl ⟨(implemented_iff _).mpr hpc, hnone, hstep⟩)
    · exact .inr (.inr ⟨y, (not_implemented_iff _).mpr (firstOutOfRange_some hfirst).2, hstep⟩)
  | ok i =>
    obtain ⟨t, hexec⟩ := exec_eq_checked i s
    rw [step_of_fetch hfetch, hexec]
    obtain ⟨_, hnext⟩ | ⟨y, _, hout, hfault⟩ := State.checked_cases s (dataReads i s ++ dataWrites i s) t
    · exact .inl ⟨t, hnext⟩
    · exact .inr (.inr ⟨y, (not_implemented_iff _).mpr hout, hfault⟩)

/-! ### Two instructions at PC -/

/-- An instruction of format F3 at PC whose operand bytes are those of `addr` is run. -/
theorem step_of_f3 {s : State} {make : Addr → Instr} {addr : Addr}
    (hform : opcodeForm (s.readByte s.pc) = some (.f3 make))
    (himp : ∀ k < 3, Implemented (s.pc + BitVec.ofNat 16 k))
    (hlo : s.readByte (s.pc + 1) = loByte addr) (hhi : s.readByte (s.pc + 2) = hiByte addr) :
    step s = exec (make addr) s := by
  have hbuilds : Form.Builds (.f3 make) (addrBytes addr) (make addr) := .f3 make addr
  have hlength : (make addr).length = 3 := Instr.length_of_builds hform hbuilds
  refine stepRunsDecodedInstruction s _ [] ?_ (wellFormed_all _) (by rwa [hlength])
  rw [hlo, hhi]
  exact decode_of_builds [] hform hbuilds

/-- So is one of format F1, whatever follows it. -/
theorem step_of_f1 {s : State} {i : Instr} (hform : opcodeForm (s.readByte s.pc) = some (.f1 i))
    (himp : Implemented s.pc) : step s = exec i s :=
  step_of_fetch (State.fetch_of_builds himp hform (.f1 i) rfl (by simp [operandAddrs, Form.format, Format.length]))

/-- Settles O44: the byte stored is the byte that the next fetch reads. -/
theorem nextFetchSeesStore : Obligations.NextFetchSeesStore := by
  intro s i himp hop hlo hhi hform
  have hstep : step s = exec (.movMemAr (s.pc + 3)) s :=
    step_of_f3 (by rw [hop]; rfl) (fun k hk => himp k (by omega)) hlo hhi
  have htarget : Implemented (s.pc + 3) := himp 3 (by omega)
  rw [exec_movMemAr_of_inRange s ((implemented_iff _).mp htarget)] at hstep
  refine ⟨_, hstep, rfl, step_of_f1 ?_ htarget⟩
  simpa using hform

/-- A `JMP` to its own address, implemented, is executed without a change. -/
theorem step_selfJump {s : State} (himp : ∀ k < 3, Implemented (s.pc + BitVec.ofNat 16 k))
    (hop : s.readByte s.pc = 0x81) (hlo : s.readByte (s.pc + 1) = loByte s.pc)
    (hhi : s.readByte (s.pc + 2) = hiByte s.pc) : step s = .next s := by
  rw [step_of_f3 (make := .jmp) (by rw [hop]; rfl) himp hlo hhi, jmpGoesToOperand]

end Sys2Proof.Machine
end

section
/-! Proofs of the statements about runs and durations (70_reset_and_hazards.md sections 4 and 6). -/

namespace Sys2Proof.Machine

/-! ### Steps of a run -/

theorem RunState.after_zero (endPc : Addr) (r : RunState) : r.after endPc 0 = r := rfl

theorem RunState.after_succ (endPc : Addr) (n : Nat) (r : RunState) :
    r.after endPc (n + 1) = (r.advance endPc).after endPc n := rfl

theorem RunState.after_add (endPc : Addr) (m n : Nat) (r : RunState) :
    r.after endPc (m + n) = (r.after endPc m).after endPc n := by
  induction m generalizing r with
  | zero => rw [Nat.zero_add, RunState.after_zero]
  | succ m ih => rw [Nat.succ_add, RunState.after_succ, RunState.after_succ, ih]

/-- A run that one step leaves as it is stays so. -/
theorem RunState.after_of_advance_eq {endPc : Addr} {r : RunState} (h : r.advance endPc = r) (n : Nat) :
    r.after endPc n = r := by
  induction n with
  | zero => rfl
  | succ n ih => rw [RunState.after_succ, h, ih]

theorem RunState.advance_of_endPc (s : State) : (RunState.running s).advance s.pc = .ended s :=
  if_pos rfl

theorem RunState.advance_of_next {endPc : Addr} {s t : State} (hpc : s.pc ≠ endPc) (h : step s = .next t) :
    (RunState.running s).advance endPc = .running t := by
  rw [RunState.advance, if_neg hpc, h]

theorem RunState.advance_of_fault {endPc : Addr} {s : State} {f : Fault} (hpc : s.pc ≠ endPc)
    (h : step s = .fault f) : (RunState.running s).advance endPc = .faulted s f := by
  rw [RunState.advance, if_neg hpc, h]

/-- What one step makes of a running run: it ends at `END_PC`, and elsewhere the step answers a next state or faults. -/
theorem RunState.advance_running_cases (endPc : Addr) (s : State) :
    (s.pc = endPc ∧ (RunState.running s).advance endPc = .ended s) ∨
    (∃ t, step s = .next t ∧ (RunState.running s).advance endPc = .running t) ∨
    (∃ f, step s = .fault f ∧ s.pc ≠ endPc ∧ (RunState.running s).advance endPc = .faulted s f) := by
  by_cases hpc : s.pc = endPc
  · subst hpc
    exact .inl ⟨rfl, RunState.advance_of_endPc s⟩
  · obtain ⟨t, h⟩ | ⟨_, _, h⟩ | ⟨_, _, h⟩ := stepAnswersNextOrOneOfTwoFaults s
    · exact .inr (.inl ⟨t, h, RunState.advance_of_next hpc h⟩)
    · exact .inr (.inr ⟨_, h, hpc, RunState.advance_of_fault hpc h⟩)
    · exact .inr (.inr ⟨_, h, hpc, RunState.advance_of_fault hpc h⟩)

/-- Settles O45: the jump leaves the state as it is, and PC decides whether the run goes on. -/
theorem selfJumpIsFixedPoint : Obligations.SelfJumpIsFixedPoint := by
  intro s himp hop hlo hhi
  have hstep := step_selfJump himp hop hlo hhi
  refine ⟨hstep, fun endPc n hpc => ?spins, fun n => ?ends⟩
  case spins => exact RunState.after_of_advance_eq (RunState.advance_of_next hpc hstep) n
  case ends => rw [RunState.after_succ, RunState.advance_of_endPc, RunState.after_of_advance_eq rfl]

/-! ### The end of a run -/

/-- What holds of every point of a run from a running state (60_exceptions.md R191, 70_reset_and_hazards.md R223). -/
def RunState.Lawful (endPc : Addr) : RunState → Prop
  | .running _ => True
  | .ended s => s.pc = endPc
  | .faulted s f => step s = .fault f ∧ s.pc ≠ endPc
  | .refused _ _ => False

theorem RunState.Lawful.advance {endPc : Addr} {r : RunState} (h : r.Lawful endPc) :
    (r.advance endPc).Lawful endPc := by
  cases r with
  | running s =>
    obtain ⟨hpc, hadv⟩ | ⟨t, _, hadv⟩ | ⟨f, hstep, hpc, hadv⟩ := RunState.advance_running_cases endPc s
    · rw [hadv]; exact hpc
    · rw [hadv]; exact trivial
    · rw [hadv]; exact ⟨hstep, hpc⟩
  | ended s => exact h
  | faulted s f => exact h
  | refused s r => exact h

theorem RunState.Lawful.after {endPc : Addr} {r : RunState} (h : r.Lawful endPc) (n : Nat) :
    (r.after endPc n).Lawful endPc := by
  induction n generalizing r with
  | zero => exact h
  | succ n ih => exact ih h.advance

/-- Settles O46: every point of the run is lawful, and a run that is over takes no further step. -/
theorem runsEndOrFaultForGood : Obligations.RunsEndOrFaultForGood := by
  intro endPc s n
  have hlawful : ((RunState.running s).after endPc n).Lawful endPc := RunState.Lawful.after (r := .running s) trivial n
  refine ⟨fun t r h => ?refused, fun t h => ?ended, fun t f h => ?faulted⟩
  case refused => rwa [h] at hlawful
  case ended =>
    rw [h] at hlawful
    exact ⟨hlawful, fun k => by rw [RunState.after_add, h, RunState.after_of_advance_eq rfl]⟩
  case faulted =>
    rw [h] at hlawful
    obtain ⟨hstep, hpc⟩ := hlawful
    exact ⟨hstep, hpc, fun k => by rw [RunState.after_add, h, RunState.after_of_advance_eq rfl]⟩

/-! ### The console -/

/-- `IO` appends one byte, every other instruction none (60_exceptions.md R200). -/
theorem exec_next_console {i : Instr} {s t : State} (h : exec i s = .next t) : s.console <+: t.console := by
  obtain ⟨hkeeps, _⟩ := exec_next_pc_console h
  cases i with
  | ioAr | ioBr => cases h; exact List.prefix_append _ _
  | _ => rw [hkeeps rfl]

theorem RunState.console_advance (endPc : Addr) (r : RunState) :
    r.state.console <+: (r.advance endPc).state.console := by
  cases r with
  | running s =>
    obtain ⟨_, hadv⟩ | ⟨t, hstep, hadv⟩ | ⟨_, _, _, hadv⟩ := RunState.advance_running_cases endPc s
    · rw [hadv]; exact List.prefix_rfl
    · obtain ⟨i, _, hexec⟩ := step_next hstep
      rw [hadv]
      exact exec_next_console hexec
    · rw [hadv]; exact List.prefix_rfl
  | ended s => exact List.prefix_rfl
  | faulted s f => exact List.prefix_rfl
  | refused s r => exact List.prefix_rfl

theorem RunState.console_after (endPc : Addr) (n : Nat) (r : RunState) :
    r.state.console <+: (r.after endPc n).state.console := by
  induction n generalizing r with
  | zero => exact List.prefix_rfl
  | succ n ih => exact (r.console_advance endPc).trans (ih _)

/-- Settles O47: every step of a run keeps what is printed at the front. -/
theorem consoleOnlyGrows : Obligations.ConsoleOnlyGrows := by
  intro endPc n r
  obtain ⟨more, h⟩ := r.console_after endPc n
  exact ⟨more, h.symm⟩

/-! ### Durations -/

theorem RunState.duration_succ (endPc : Addr) (n : Nat) (r : RunState) :
    r.duration endPc (n + 1) = r.stepCycles endPc + (r.advance endPc).duration endPc n := rfl

theorem RunState.duration_add (endPc : Addr) (m n : Nat) (r : RunState) :
    r.duration endPc (m + n) = r.duration endPc m + (r.after endPc m).duration endPc n := by
  induction m generalizing r with
  | zero => rw [Nat.zero_add, RunState.after_zero]; exact (Nat.zero_add _).symm
  | succ m ih =>
    rw [Nat.succ_add, RunState.duration_succ, ih, RunState.duration_succ, RunState.after_succ, Nat.add_assoc]

theorem RunState.stepCycles_of_exec {endPc : Addr} {i : Instr} {s t : State} (hpc : s.pc ≠ endPc)
    (hfetch : s.fetch = .ok i) (hexec : exec i s = .next t) : (RunState.running s).stepCycles endPc = cycles i := by
  rw [RunState.stepCycles, if_neg hpc]
  simp only [hfetch, hexec]

/-- Settles O48: a sum over the steps of a run. -/
theorem durationsAddUp : Obligations.DurationsAddUp := by
  refine ⟨RunState.duration_add, fun endPc i s t hpc hfetch hexec => ?_⟩
  rw [RunState.duration_succ, RunState.stepCycles_of_exec hpc hfetch hexec]
  rfl

/-- Settles O49: the start of a run, field by field. -/
theorem runsStartAsSpecified : Obligations.RunsStartAsSpecified :=
  ⟨fun r image => ⟨State.boot r image, rfl, rfl, rfl, rfl, fun _ => rfl, rfl, rfl, rfl, rfl, rfl, rfl, rfl⟩,
    ⟨ResetValues.zeros, [], rfl⟩⟩

end Sys2Proof.Machine
end

section
/-! Proofs of the statements about the memory map (20_memory.md section 1), the picture (60_exceptions.md section 5) and
the readings the source leaves open (92_eei_decisions.md). -/

namespace Sys2Proof.Machine

/-! ### The memory map -/

theorem Region.holds_iff (r : Region) (x : Nat) : r.holds x = true ↔ r.first ≤ x ∧ x ≤ r.last := by
  simp [Region.holds]

theorem Region.mem_all (r : Region) : r ∈ Region.all := by
  cases r <;> decide

/-- Of two regions one ends before the other begins (20_memory.md R40). -/
theorem Region.last_lt_first_or (r r' : Region) : r = r' ∨ r.last < r'.first ∨ r'.last < r.first := by
  cases r <;> cases r' <;> decide

theorem Region.eq_of_holds {r r' : Region} {x : Nat} (h : r.holds x = true) (h' : r'.holds x = true) : r = r' := by
  rw [Region.holds_iff] at h h'
  obtain heq | hlt | hlt := r.last_lt_first_or r'
  · exact heq
  · omega
  · omega

theorem Region.holds_of_regionOf {x : Nat} {r : Region} (h : regionOf x = some r) : r.holds x = true :=
  List.find?_some (p := fun r : Region => r.holds x) h

/-- The region found is the one that holds the address. -/
theorem regionOf_eq_some_iff (x : Nat) (r : Region) : regionOf x = some r ↔ r.holds x = true := by
  refine ⟨Region.holds_of_regionOf, fun h => ?_⟩
  have hsome : (regionOf x).isSome = true := by
    rw [regionOf, List.find?_isSome]
    exact ⟨r, r.mem_all, h⟩
  obtain ⟨r', hr'⟩ := Option.isSome_iff_exists.mp hsome
  rw [Region.eq_of_holds h (Region.holds_of_regionOf hr')]
  exact hr'

theorem Region.last_le (r : Region) : r.last ≤ 0x3FFF := by
  cases r <;> decide

/-- The regions follow one another without a gap. -/
theorem exists_holds_of_le {x : Nat} (h : x ≤ 0x3FFF) : ∃ r : Region, r.holds x = true := by
  simp only [Region.holds_iff]
  by_contra hnone
  rw [not_exists] at hnone
  have h0 := hnone .zeroPagePointers
  have h1 := hnone .osCode
  have h2 := hnone .osConstants
  have h3 := hnone .cleanedInput
  have h4 := hnone .keyRing
  have h5 := hnone .stack
  have h6 := hnone .characterRom
  have h7 := hnone .screenMemory
  simp only [Region.first, Region.last] at h0 h1 h2 h3 h4 h5 h6 h7
  omega

/-- Settles O50: the regions are disjoint, leave no gap and end at 0x3FFF. -/
theorem memoryMapCoversImplementedAddresses : Obligations.MemoryMapCoversImplementedAddresses := by
  refine ⟨rfl, rfl, fun x r => (regionOf_eq_some_iff x r).trans (r.holds_iff x), fun x => ?_⟩
  rw [Option.isSome_iff_exists]
  simp only [regionOf_eq_some_iff]
  refine ⟨fun ⟨r, hr⟩ => ?_, exists_holds_of_le⟩
  exact ((r.holds_iff x).mp hr).2.trans r.last_le

/-! ### The picture -/

/-- The rows of every glyph of either character set are in the Character ROM (60_exceptions.md R203). -/
theorem glyphAddr_bounds (secondSet : Bool) (c : Byte) {y : Nat} (hy : y < 8) :
    0x1000 ≤ glyphAddr secondSet c y ∧ glyphAddr secondSet c y ≤ 0x1FFF := by
  have hc := c.isLt
  have hset := Bool.toNat_le secondSet
  rw [glyphAddr]
  omega

/-- Settles O51: a pixel is a bit of one glyph row, and the glyph that of one code. -/
theorem pictureDependsOnlyOnGlyphsAndCodes : Obligations.PictureDependsOnlyOnGlyphsAndCodes := by
  intro m n h i y x hi hy _
  have hcode : screenCode m i = screenCode n i := h _ (by omega) (by omega)
  obtain ⟨hlo, hhi⟩ := glyphAddr_bounds Config.charsetSelect (screenCode n i) hy
  rw [picturePixel, picturePixel, hcode, glyphPixel, glyphPixel, h _ hlo (hhi.trans (by decide))]

/-! ### The readings -/

theorem sext16_of_msb_false {v : Byte} (h : v.msb = false) : sext16 v = zext16 v :=
  BitVec.signExtend_eq_setWidth_of_msb_false h

/-- The two extensions of a byte with its sign bit set differ by 0x0100. -/
theorem zext16_of_msb_true {v : Byte} (h : v.msb = true) : zext16 v = sext16 v + 0x0100 := by
  have hv := v.isLt
  have hdiff : (0x0100 : Addr).toNat = 256 := rfl
  apply BitVec.eq_of_toNat_eq
  rw [toNat_zext16, sext16, BitVec.toNat_add, BitVec.toNat_signExtend, h, if_pos rfl, BitVec.toNat_setWidth, hdiff]
  omega

theorem joinBytes_comm_iff (x y : Byte) : joinBytes y x = joinBytes x y ↔ x = y := by
  refine ⟨fun h => ?_, fun h => by rw [h]⟩
  have hlo := congrArg loByte h
  rwa [loByte_joinBytes, loByte_joinBytes] at hlo

/-- The next zero-page byte is the next byte, but for the last one. -/
theorem zext16_add_one_eq_iff (zp : Byte) : zext16 (zp + 1) = zext16 zp + 1 ↔ zp ≠ 0xFF := by
  have hzp := zp.isLt
  have hlast : zp ≠ 0xFF ↔ zp.toNat ≠ 255 := by
    rw [Ne, Ne, ← BitVec.toNat_inj]
    rfl
  rw [hlast, ← BitVec.toNat_inj, toNat_zext16_add_one, toNat_zext16, BitVec.toNat_add]
  change (zp.toNat + 1) % 256 = _ ↔ _
  omega

/-- Settles O52: each pair of readings, compared as 16-bit values. -/
theorem addressReadingsAgreeWhereStated : Obligations.AddressReadingsAgreeWhereStated := by
  refine ⟨fun base v h => ?unsigned, fun base v h => ?signed, joinBytes_comm_iff, zext16_add_one_eq_iff⟩
  case unsigned =>
    change base + sext16 v = base + zext16 v
    rw [sext16_of_msb_false h]
  case signed =>
    change base + zext16 v = base + sext16 v + 0x0100
    rw [zext16_of_msb_true h, BitVec.add_assoc]

/-- The frame found from BP is the frame found from SP just above it. -/
theorem sub_three_eq_sub_four_iff (sp bp : Addr) : bp - 3 = sp - 4 ↔ sp = bp + 1 := by
  constructor
  · intro h; bv_omega
  · intro h; bv_omega

/-- Settles O53: with C = 0 both readings take the same carry or borrow, and one polarity of C negates the other. -/
theorem frameAndCarryReadingsAgreeWhereStated : Obligations.FrameAndCarryReadingsAgreeWhereStated := by
  refine ⟨sub_three_eq_sub_four_iff, fun _ _ => rfl, fun _ _ => rfl, fun bin x y => ?polarity⟩
  case polarity =>
    have hne : ∀ borrow : Bool, (borrow == true) ≠ (borrow == false) := by decide
    exact hne _

end Sys2Proof.Machine
end
